-- ==== Sys2Proof/Word.lean ====
section
/-! DEFINITION. The word types of the block: the Word32 and the byte (spec/00_scope.md R6, R8). -/

namespace Sys2Proof

/-- A Word32, "an opaque 32-bit value representing one block half" (00_scope.md R6, glossary).
Bit numbers are LSB-0 (00_scope.md R7). -/
abbrev Word := BitVec 32

/-- An 8-bit value, one of the four bytes of a Word32 (00_scope.md R8). -/
abbrev Byte := BitVec 8

end Sys2Proof
end

