-- ==== Sys2Proof/Config.lean ====
section
/-! DEFINITION. What an implementation of the block fixes: the type of the evaluator table APPROX
(spec/00_scope.md R5, spec/10_state.md R54) and the identification constant (spec/10_state.md R53). -/

namespace Sys2Proof

/-- A stage of the search, naming the subkey K0..K3 it looks for (30_encoding.md R93). -/
inductive Stage where
  | k0
  | k1
  | k2
  | k3
deriving DecidableEq, Repr

/-- The variant of an evaluator (30_encoding.md R94). -/
inductive Variant where
  | inner
  | outer
deriving DecidableEq, Repr

/-- One entry of APPROX: eight 32-bit masks and the 5-bit selector of the transform input, with
`tin[0]` = PL, `tin[1]` = PR, `tin[2]` = Y0, `tin[3]` = Y1 and `tin[4]` = Y2 (00_scope.md R5). -/
structure ApproxEntry where
  mPL : Word
  mPR : Word
  mCL : Word
  mCR : Word
  mY0 : Word
  mY1 : Word
  mY2 : Word
  mT : Word
  tin : BitVec 5
deriving DecidableEq, Repr

/-- The table APPROX, one entry for each stage and variant (00_scope.md R5). -/
structure ApproxTable where
  inner0 : ApproxEntry
  outer0 : ApproxEntry
  inner1 : ApproxEntry
  outer1 : ApproxEntry
  inner2 : ApproxEntry
  outer2 : ApproxEntry
  inner3 : ApproxEntry
  outer3 : ApproxEntry
deriving DecidableEq, Repr

/-- What the register ID always reads, the ASCII bytes of "F4LA" (10_state.md R53). -/
def idWord : Word := 0x46344C41

end Sys2Proof
end

