-- ==== Sys2Proof/Syntax.lean ====
section
/-! DEFINITION. The commands of F4LA-1, one constructor for each row of spec/opcode_table.json; the
register names of the host window; and the moves a host can make (spec/70_reset_and_hazards.md R298). -/

namespace Sys2Proof

/-- A command (30_encoding.md R92, R102). Every operand has exactly the width its field has, so
every value of this type is a command a host can send. -/
inductive Instr where
  /-- NOP (47_misc.md R250). -/
  | nop
  /-- XFORM (41_transform.md R124). -/
  | xform
  /-- DECRYPT, with ACC = 0 (42_decrypt.md R142). -/
  | decrypt
  /-- DECRYPT.A, with ACC = 1 (42_decrypt.md R142). -/
  | decryptA
  /-- EVAL Ks, inner|outer, with ACC = 0 (43_evaluate.md R165). -/
  | eval (s : Stage) (v : Variant)
  /-- EVAL.A Ks, inner|outer, with ACC = 1 (43_evaluate.md R165). -/
  | evalA (s : Stage) (v : Variant)
  /-- BUILDI #n, a 12-bit index (44_candidate.md R192). -/
  | buildi (n : BitVec 12)
  /-- BUILDO #n, a 20-bit index (44_candidate.md R193). -/
  | buildo (n : BitVec 20)
  /-- KSET Ks (44_candidate.md R194). -/
  | kset (s : Stage)
  /-- YGEN (46_derive.md R231). -/
  | ygen
  /-- KDERIVE (46_derive.md R233). -/
  | kderive
  /-- FCLR (45_filter.md R213). -/
  | fclr
deriving DecidableEq, Repr

/-- The twenty registers a host reads and writes in full, indices 0 to 19 of the register file
(10_state.md R30, 20_memory.md R64 and R65). -/
inductive DataReg where
  | pl
  | pr
  | cl
  | cr
  | k0
  | k1
  | k2
  | k3
  | k4
  | k5
  | cand
  | ink
  | x
  | t
  | dl
  | dr
  | y0
  | y1
  | y2
  | y3
deriving DecidableEq, Repr

/-- The named registers of the window (10_state.md R30). Indices 24 to 30 are reserved and have no
name (R40); ID is a constant (R53) and CMD is the command port (R41). -/
inductive WindowReg where
  | data (r : DataReg)
  | ebit
  | filt
  | status
  | id
  | cmd
deriving DecidableEq, Repr

/-- What the host and the platform can do to the block (70_reset_and_hazards.md R298): one aligned or
misaligned 32-bit read or write at a 7-bit byte offset of the window (20_memory.md R60, R62), or a
reset (70_reset_and_hazards.md R290). No other move exists. -/
inductive HostMove where
  | read (addr : BitVec 7)
  | write (addr : BitVec 7) (value : Word)
  | reset
deriving DecidableEq, Repr

end Sys2Proof
end

