-- ==== Sys2Proof/WellFormed.lean ====
section
/-! DEFINITION. Which command words are well formed: the match and mask pairs of
spec/30_encoding.md R92, and the reasons of R99 for which a word is illegal. The decoder of
Sys2Proof/Decode.lean is written from R98 instead, so that the two can be compared. A value of
`Instr` needs no check of its own: each operand is carried at the width of its field. -/

namespace Sys2Proof

/-- Why a command word is illegal (30_encoding.md R99). -/
inductive Illegal where
  /-- RSV, bits 23:20, is not 0 (30_encoding.md R96). -/
  | rsvNonzero
  /-- OP is 0xA to 0xF (30_encoding.md R100). -/
  | reservedOp
  /-- A field that R92 marks 0 for the word's OP is not 0. -/
  | mustBeZero
deriving DecidableEq, Repr

/-- One row of the match and mask list of 30_encoding.md R92: a word is the command exactly when
the word and the mask give the match. -/
structure OpcodeRow where
  pattern : Word
  mask : Word
deriving DecidableEq, Repr

def OpcodeRow.accepts (row : OpcodeRow) (w : Word) : Bool := w &&& row.mask == row.pattern

/-- The ten rows of 30_encoding.md R92, in the order of their opcodes. -/
def opcodeRows : List OpcodeRow :=
  [ ⟨0x00000000, 0xFFFFFFFF⟩,   -- NOP
    ⟨0x10000000, 0xFFFFFFFF⟩,   -- XFORM
    ⟨0x20000000, 0xFEFFFFFF⟩,   -- DECRYPT, DECRYPT.A
    ⟨0x30000000, 0xF0FFFFFF⟩,   -- EVAL, EVAL.A
    ⟨0x40000000, 0xFFFFF000⟩,   -- BUILDI
    ⟨0x50000000, 0xFFF00000⟩,   -- BUILDO
    ⟨0x60000000, 0xF3FFFFFF⟩,   -- KSET
    ⟨0x70000000, 0xFFFFFFFF⟩,   -- YGEN
    ⟨0x80000000, 0xFFFFFFFF⟩,   -- KDERIVE
    ⟨0x90000000, 0xFFFFFFFF⟩ ]  -- FCLR

/-- A command word is well formed when it matches a row; "every word that matches no row is
illegal" (30_encoding.md R92). -/
def wellFormedWord (w : Word) : Bool := opcodeRows.any fun row => row.accepts w

end Sys2Proof
end

