-- ==== Sys2Proof/Decode.lean ====
section
/-! DEFINITION. The decoder of command words, total on every word and rejecting by name
(spec/30_encoding.md R91, R98, R99), and after it the encoder (R102, R104). A command word reaches
the block whole, as one 32-bit write, so it has no byte order (spec/20_memory.md R72). -/

namespace Sys2Proof

/-- The fields of a command word (30_encoding.md R91). -/
structure CommandFields where
  op : BitVec 4
  stg : BitVec 2
  var : BitVec 1
  acc : BitVec 1
  rsv : BitVec 4
  imm : BitVec 20
deriving DecidableEq, Repr

/-- OP 31:28, STG 27:26, VAR 25, ACC 24, RSV 23:20, IMM20 19:0 (30_encoding.md R91). -/
def fieldsOf (w : Word) : CommandFields where
  op := w.extractLsb' 28 4
  stg := w.extractLsb' 26 2
  var := w.extractLsb' 25 1
  acc := w.extractLsb' 24 1
  rsv := w.extractLsb' 20 4
  imm := w.extractLsb' 0 20

/-- STG as a stage: s = 0..3 names K0..K3, and no value is reserved (30_encoding.md R93). -/
def stageOfBits (b : BitVec 2) : Stage :=
  match b.toNat with
  | 0 => .k0
  | 1 => .k1
  | 2 => .k2
  | _ => .k3

/-- VAR as a variant: 0 is inner and 1 is outer (30_encoding.md R94). -/
def variantOfBit (b : BitVec 1) : Variant := if b = 0 then .inner else .outer

/-- A "require" of 30_encoding.md R98: the instruction if the must-be-zero fields are 0. -/
def requireZero (zero : Bool) (i : Instr) : Except Illegal Instr :=
  if zero then .ok i else .error .mustBeZero

/-- The case split of 30_encoding.md R98 on OP, for a word whose RSV is 0. -/
def decodeFields (f : CommandFields) : Except Illegal Instr :=
  match f.op.toNat with
  | 0x0 => requireZero (f.stg == 0 && f.var == 0 && f.acc == 0 && f.imm == 0) .nop
  | 0x1 => requireZero (f.stg == 0 && f.var == 0 && f.acc == 0 && f.imm == 0) .xform
  | 0x2 => requireZero (f.stg == 0 && f.var == 0 && f.imm == 0)
      (if f.acc = 0 then .decrypt else .decryptA)
  | 0x3 => requireZero (f.imm == 0)
      (if f.acc = 0 then .eval (stageOfBits f.stg) (variantOfBit f.var)
       else .evalA (stageOfBits f.stg) (variantOfBit f.var))
  | 0x4 => requireZero (f.stg == 0 && f.var == 0 && f.acc == 0 && f.imm.extractLsb' 12 8 == 0)
      (.buildi (f.imm.extractLsb' 0 12))
  | 0x5 => requireZero (f.stg == 0 && f.var == 0 && f.acc == 0) (.buildo f.imm)
  | 0x6 => requireZero (f.var == 0 && f.acc == 0 && f.imm == 0) (.kset (stageOfBits f.stg))
  | 0x7 => requireZero (f.stg == 0 && f.var == 0 && f.acc == 0 && f.imm == 0) .ygen
  | 0x8 => requireZero (f.stg == 0 && f.var == 0 && f.acc == 0 && f.imm == 0) .kderive
  | 0x9 => requireZero (f.stg == 0 && f.var == 0 && f.acc == 0 && f.imm == 0) .fclr
  | _ => .error .reservedOp

/-- Decode (30_encoding.md R98): RSV is checked first, then OP, then the fields R92 marks 0. -/
def decode (w : Word) : Except Illegal Instr :=
  if (fieldsOf w).rsv = 0 then decodeFields (fieldsOf w) else .error .rsvNonzero

/-- The instruction of a command word numbered as spec/opcode_table.json numbers its bits: bit 0
is the least significant bit of the one 32-bit word (30_encoding.md R90, R91). -/
def decodeTableWord (nbits w : Nat) : Option Instr :=
  match decode (BitVec.ofNat 32 (w % 2 ^ nbits)) with
  | .ok i => some i
  | .error _ => none

/-- The inverse of `stageOfBits` (30_encoding.md R93). -/
def stageBits : Stage → BitVec 2
  | .k0 => 0
  | .k1 => 1
  | .k2 => 2
  | .k3 => 3

/-- The inverse of `variantOfBit` (30_encoding.md R94). -/
def variantBit : Variant → BitVec 1
  | .inner => 0
  | .outer => 1

/-- The word with the given fields and RSV = 0 (30_encoding.md R104). -/
def assembleWord (op : BitVec 4) (stg : BitVec 2) (var acc : BitVec 1) (imm : BitVec 20) : Word :=
  op ++ stg ++ var ++ acc ++ (0 : BitVec 4) ++ imm

/-- The word of a command (30_encoding.md R102). -/
def encode : Instr → Word
  | .nop => assembleWord 0x0 0 0 0 0
  | .xform => assembleWord 0x1 0 0 0 0
  | .decrypt => assembleWord 0x2 0 0 0 0
  | .decryptA => assembleWord 0x2 0 0 1 0
  | .eval s v => assembleWord 0x3 (stageBits s) (variantBit v) 0 0
  | .evalA s v => assembleWord 0x3 (stageBits s) (variantBit v) 1 0
  | .buildi n => assembleWord 0x4 0 0 0 (n.setWidth 20)
  | .buildo n => assembleWord 0x5 0 0 0 n
  | .kset s => assembleWord 0x6 (stageBits s) 0 0 0
  | .ygen => assembleWord 0x7 0 0 0 0
  | .kderive => assembleWord 0x8 0 0 0 0
  | .fclr => assembleWord 0x9 0 0 0 0

end Sys2Proof
end

