-- ==== Sys2Proof/Machine/Table.lean ====
section
/-! DEFINITION. The default evaluator table (spec/43_evaluate.md R163), how a table is indexed
(spec/00_scope.md R5), and when one conforms to the document (spec/43_evaluate.md R164). -/

namespace Sys2Proof.Machine

/-- `APPROX[s][v]` (00_scope.md R5). -/
def approxEntry (table : ApproxTable) : Stage → Variant → ApproxEntry
  | .k0, .inner => table.inner0
  | .k0, .outer => table.outer0
  | .k1, .inner => table.inner1
  | .k1, .outer => table.outer1
  | .k2, .inner => table.inner2
  | .k2, .outer => table.outer2
  | .k3, .inner => table.inner3
  | .k3, .outer => table.outer3

/-- The default APPROX (43_evaluate.md R163), row by row. -/
def defaultApprox : ApproxTable where
  inner0 := { mPL := 0x04050400, mPR := 0x04040400, mCL := 0x04050400, mCR := 0x00010000,
              mY0 := 0, mY1 := 0, mY2 := 0, mT := 0x00010000, tin := 0b00011 }
  outer0 := { mPL := 0x01050101, mPR := 0x00040000, mCL := 0x01050101, mCR := 0x01010101,
              mY0 := 0, mY1 := 0, mY2 := 0, mT := 0x01010101, tin := 0b00011 }
  inner1 := { mPL := 0x04050400, mPR := 0x00010000, mCL := 0x04040400, mCR := 0x04040400,
              mY0 := 0x04040400, mY1 := 0, mY2 := 0, mT := 0x00010000, tin := 0b00101 }
  outer1 := { mPL := 0x01050101, mPR := 0x01010101, mCL := 0x00040000, mCR := 0x00040000,
              mY0 := 0x00040000, mY1 := 0, mY2 := 0, mT := 0x01010101, tin := 0b00101 }
  inner2 := { mPL := 0x00010000, mPR := 0, mCL := 0x00010000, mCR := 0x00010000,
              mY0 := 0x00010000, mY1 := 0, mY2 := 0, mT := 0x00010000, tin := 0b01011 }
  outer2 := { mPL := 0x01010101, mPR := 0, mCL := 0x01010101, mCR := 0x01010101,
              mY0 := 0x01010101, mY1 := 0, mY2 := 0, mT := 0x01010101, tin := 0b01011 }
  inner3 := { mPL := 0x00010000, mPR := 0x00010000, mCL := 0x00010000, mCR := 0,
              mY0 := 0, mY1 := 0x00010000, mY2 := 0, mT := 0x00010000, tin := 0b10101 }
  outer3 := { mPL := 0x01010101, mPR := 0x01010101, mCL := 0x01010101, mCR := 0,
              mY0 := 0, mY1 := 0x01010101, mY2 := 0, mT := 0x01010101, tin := 0b10101 }

/-- How many of Y0, Y1, Y2 an entry of the given stage may use: those y_j with j < s
(43_evaluate.md R160, R164). -/
def stageNumber : Stage → Nat
  | .k0 => 0
  | .k1 => 1
  | .k2 => 2
  | .k3 => 3

/-- Conditions W1 and W2 of 43_evaluate.md R164 for one entry; W3 holds by construction, since
there is no y3 operand. -/
def entryConforms (s : Stage) (e : ApproxEntry) : Bool :=
  (decide (0 < stageNumber s) || (e.mY0 == 0 && !e.tin.getLsbD 2)) &&
  (decide (1 < stageNumber s) || (e.mY1 == 0 && !e.tin.getLsbD 3)) &&
  (decide (2 < stageNumber s) || (e.mY2 == 0 && !e.tin.getLsbD 4)) &&
  e.mT != 0

/-- A table conforms to the document when all its eight entries do (43_evaluate.md R164). -/
def tableConforms (table : ApproxTable) : Bool :=
  [Stage.k0, .k1, .k2, .k3].all fun s =>
    [Variant.inner, .outer].all fun v => entryConforms s (approxEntry table s v)

end Sys2Proof.Machine
end

