-- ==== Sys2Proof/Machine/State.lean ====
section
/-! DEFINITION. The state of the block, as plain data, and the state right after reset
(spec/10_state.md R30 to R57, spec/70_reset_and_hazards.md R290). -/

namespace Sys2Proof.Machine

/-- The five fields of FILT (10_state.md R50). Bits 31:5 of the register always read 0 and writes to
them are discarded (R51), so they are not stored; `matched` is the field MATCH. -/
structure Filt where
  seen : Bool
  ref : Bool
  ok : Bool
  matched : Bool
  vok : Bool
deriving DecidableEq, Repr

/-- The two sticky error flags of STATUS (10_state.md R52). Bits 31:2 of the register always read 0
and writes to them are discarded, so they are not stored. -/
structure Status where
  ill : Bool
  herr : Bool
deriving DecidableEq, Repr

/-- The block's whole state (10_state.md R55): the register file of R30, the fields of R50 to R52 and
the constant table of R54; and two fields of the model's own, the host's moves not yet accepted and
the values its reads returned (70_reset_and_hazards.md R297; log entry 2). -/
structure State where
  /-- Plaintext Left (10_state.md R31). -/
  pl : Word
  /-- Plaintext Right (10_state.md R31). -/
  pr : Word
  /-- Ciphertext Left (10_state.md R31). -/
  cl : Word
  /-- Ciphertext Right (10_state.md R31). -/
  cr : Word
  /-- Subkey K0 (10_state.md R32). -/
  k0 : Word
  /-- Subkey K1 (10_state.md R32). -/
  k1 : Word
  /-- Subkey K2 (10_state.md R32). -/
  k2 : Word
  /-- Subkey K3 (10_state.md R32). -/
  k3 : Word
  /-- Whitening key K4 (10_state.md R32). -/
  k4 : Word
  /-- Whitening key K5 (10_state.md R32). -/
  k5 : Word
  /-- The current candidate key (10_state.md R33). -/
  cand : Word
  /-- The inner key (10_state.md R33). -/
  ink : Word
  /-- The operand of XFORM (10_state.md R35). -/
  x : Word
  /-- The result of XFORM (10_state.md R35). -/
  t : Word
  /-- Left half of the last DECRYPT result (10_state.md R36). -/
  dl : Word
  /-- Right half of the last DECRYPT result (10_state.md R36). -/
  dr : Word
  /-- Intermediate round output Y0 (10_state.md R37). -/
  y0 : Word
  /-- Intermediate round output Y1 (10_state.md R37). -/
  y1 : Word
  /-- Intermediate round output Y2 (10_state.md R37). -/
  y2 : Word
  /-- Intermediate round output Y3 (10_state.md R37). -/
  y3 : Word
  /-- The bit of the last EVAL in bit 0, bits 31:1 zero (10_state.md R38; log entry 6). -/
  ebit : Word
  /-- The constancy filter and validation verdicts (10_state.md R50; log entry 5). -/
  filt : Filt
  /-- The error flags (10_state.md R52; log entry 5). -/
  status : Status
  /-- The evaluator table, which no step changes (10_state.md R54; log entry 1). -/
  approx : ApproxTable
  /-- The host's moves the port has not accepted yet, next one first (log entry 2). -/
  port : List HostMove
  /-- The values the host's reads returned, oldest first (log entry 2). -/
  reads : List Word
deriving DecidableEq, Repr

/-- Reasons the machine could stop with a fault. There is none: "A run does not fault" and "every
access completes" (70_reset_and_hazards.md R297); an error is a flag of STATUS and the run goes on
(60_exceptions.md R264). Nothing raises it. Log entry 8. -/
inductive Fault where
deriving DecidableEq, Repr

/-- Reasons an instruction could be refused. -/
inductive Refusal where
  /-- An instruction without a meaning. No arm of `exec` raises it: all twelve have one. Safe. -/
  | notModelled (mnemonic : String)
deriving DecidableEq, Repr

/-- What a meaning answers. -/
abbrev Result := Host.Outcome State Fault Refusal

/-- The machine right after reset (10_state.md R56): every data register and EBIT 0, FILT
0x00000014 (SEEN=0, REF=0, OK=1, MATCH=0, VOK=1), STATUS 0; APPROX its default (43_evaluate.md
R163); no host move waiting and nothing read yet (log entry 2). -/
def State.reset : State where
  pl := 0
  pr := 0
  cl := 0
  cr := 0
  k0 := 0
  k1 := 0
  k2 := 0
  k3 := 0
  k4 := 0
  k5 := 0
  cand := 0
  ink := 0
  x := 0
  t := 0
  dl := 0
  dr := 0
  y0 := 0
  y1 := 0
  y2 := 0
  y3 := 0
  ebit := 0
  filt := { seen := false, ref := false, ok := true, matched := false, vok := true }
  status := { ill := false, herr := false }
  approx := defaultApprox
  port := []
  reads := []

end Sys2Proof.Machine
end

