-- ==== Sys2Proof/Machine/Flags.lean ====
section
/-! DEFINITION. The flag computations: the words a host reads and writes for FILT and STATUS
(spec/20_memory.md R64, R65), the filter and validation updates (spec/45_filter.md R211 to R213) and
the error flags (spec/60_exceptions.md R261, R262). -/

namespace Sys2Proof.Machine

/-- What a host read of FILT returns: `16*VOK + 8*MATCH + 4*OK + 2*REF + SEEN` (20_memory.md R64). -/
def Filt.toWord (f : Filt) : Word :=
  BitVec.ofNat 32
    (16 * f.vok.toNat + 8 * f.matched.toNat + 4 * f.ok.toNat + 2 * f.ref.toNat + f.seen.toNat)

/-- What a host write of FILT stores: bits 4:0 of the written value (10_state.md R51). -/
def Filt.ofWord (v : Word) : Filt where
  seen := v.getLsbD 0
  ref := v.getLsbD 1
  ok := v.getLsbD 2
  matched := v.getLsbD 3
  vok := v.getLsbD 4

/-- `FiltAcc(b)`: the first accumulated bit is recorded, a later one that differs clears OK
(45_filter.md R211). -/
def Filt.accumulate (f : Filt) (b : Bool) : Filt :=
  if f.seen = false then { f with ref := b, seen := true }
  else if b ≠ f.ref then { f with ok := false }
  else f

/-- The update of every DECRYPT: `MATCH <- m` (45_filter.md R212). -/
def Filt.recordMatch (f : Filt) (m : Bool) : Filt := { f with matched := m }

/-- The update of DECRYPT.A on top of MATCH: `VOK <- VOK and m` (45_filter.md R212). -/
def Filt.validate (f : Filt) (m : Bool) : Filt := { f with vok := f.vok && m }

/-- The value FCLR gives: `SEEN <- 0; REF <- 0; OK <- 1; MATCH <- 0; VOK <- 1` (45_filter.md R213). -/
def Filt.cleared : Filt :=
  { seen := false, ref := false, ok := true, matched := false, vok := true }

/-- What a host read of STATUS returns: `2*HERR + ILL` (20_memory.md R64). -/
def Status.toWord (st : Status) : Word := BitVec.ofNat 32 (2 * st.herr.toNat + st.ill.toNat)

/-- Write-1-to-clear: each flag whose bit is 1 in the written value is cleared, the others stay
(10_state.md R52). -/
def Status.clearOnes (st : Status) (v : Word) : Status where
  ill := st.ill && !v.getLsbD 0
  herr := st.herr && !v.getLsbD 1

/-- `STATUS.ILL <- 1` (60_exceptions.md R261). -/
def Status.withIll (st : Status) : Status := { st with ill := true }

/-- `STATUS.HERR <- 1` (60_exceptions.md R262). -/
def Status.withHerr (st : Status) : Status := { st with herr := true }

end Sys2Proof.Machine
end

