-- ==== Sys2Proof/Machine/Bits.lean ====
section
/-! DEFINITION. The operators of the spec's notation: the bytes of a Word32, their concatenation,
parity, and the bit positions and masks in the document's MSB-0 numbering (spec/00_scope.md R7 to R9). -/

namespace Sys2Proof.Machine

/-- `byte_0(v) = v[31:24]`, the most significant byte (00_scope.md R8). -/
def byte0 (v : Word) : Byte := v.extractLsb' 24 8

/-- `byte_1(v) = v[23:16]` (00_scope.md R8). -/
def byte1 (v : Word) : Byte := v.extractLsb' 16 8

/-- `byte_2(v) = v[15:8]` (00_scope.md R8). -/
def byte2 (v : Word) : Byte := v.extractLsb' 8 8

/-- `byte_3(v) = v[7:0]`, the least significant byte (00_scope.md R8). -/
def byte3 (v : Word) : Byte := v.extractLsb' 0 8

/-- The Word32 with the four given bytes, most significant first (00_scope.md R8). -/
def cat8 (a b c d : Byte) : Word := a ++ b ++ c ++ d

/-- `par(v)`: the XOR of the 32 bits of v (00_scope.md R9). -/
def par (v : Word) : Bool := (List.range 32).foldl (fun acc i => acc ^^ v.getLsbD i) false

/-- `S_p(v) = v[31-p]`: the bit at an MSB-0 position (00_scope.md R7). -/
def bitAt (p : Nat) (v : Word) : Bool := v.getLsbD (31 - p)

/-- `S_{p1,..,pk}(v)`: the XOR of the bits at the given MSB-0 positions (00_scope.md R7). -/
def bitsAt : List Nat → Word → Bool
  | [], _ => false
  | p :: ps, v => bitAt p v ^^ bitsAt ps v

/-- `Mask(p1,..,pk)`: the word whose bits at the given MSB-0 positions are set (00_scope.md R7). -/
def posMask : List Nat → Word
  | [] => 0
  | p :: ps => BitVec.twoPow 32 (31 - p) ||| posMask ps

/-- `v` if the selecting bit is set and 0 otherwise (the `?` of 43_evaluate.md R161). -/
def selectWord (b : Bool) (v : Word) : Word := if b then v else 0

end Sys2Proof.Machine
end

