-- ==== Sys2Proof/Machine/Cipher.lean ====
section
/-! DEFINITION. The cipher's functions: F (spec/41_transform.md), decryption and the derived
encryption (spec/42_decrypt.md), and the round outputs and whitening keys (spec/46_derive.md). -/

namespace Sys2Proof.Machine

/-- `rotl2(a) = ((a << 2) or (a >> 6)) mod 256` (41_transform.md R120). -/
def rotl2 (a : BitVec 8) : BitVec 8 := (a <<< 2) ||| (a >>> 6)

/-- `sub0(a, b) = rotl2((a + b) mod 256)` (41_transform.md R121). -/
def sub0 (a b : Byte) : Byte := rotl2 (a + b)

/-- `sub1(a, b) = rotl2((a + b + 1) mod 256)` (41_transform.md R121). -/
def sub1 (a b : Byte) : Byte := rotl2 (a + b + 1)

/-- The output byte o1 of F, the first in dependency order (41_transform.md R122). -/
def o1Of (x : Word) : Byte := sub1 (byte1 x ^^^ byte0 x) (byte2 x ^^^ byte3 x)

/-- The output byte o0 of F, from b0 and o1 (41_transform.md R122). -/
def o0Of (x : Word) : Byte := sub0 (byte0 x) (o1Of x)

/-- The output byte o2 of F, from o1, b2 and b3 (41_transform.md R122). -/
def o2Of (x : Word) : Byte := sub0 (o1Of x) (byte2 x ^^^ byte3 x)

/-- The output byte o3 of F, from o2 and b3 (41_transform.md R122). -/
def o3Of (x : Word) : Byte := sub1 (o2Of x) (byte3 x)

/-- The nonlinear function F, the document's `transform` (41_transform.md R122). -/
def F (x : Word) : Word := cat8 (o0Of x) (o1Of x) (o2Of x) (o3Of x)

/-- A Block64: an ordered pair (Left, Right) of Word32 (10_state.md R31). -/
structure Block where
  left : Word
  right : Word
deriving DecidableEq, Repr

/-- The SubkeySet K0..K5 (10_state.md R32). -/
structure Subkeys where
  k0 : Word
  k1 : Word
  k2 : Word
  k3 : Word
  k4 : Word
  k5 : Word
deriving DecidableEq, Repr

/-- Initial whitening of a ciphertext block (42_decrypt.md R140). -/
def whiten (c : Block) (k4 k5 : Word) : Block :=
  { left := (c.left ^^^ k4) ^^^ c.right ^^^ k5, right := c.left ^^^ k4 }

/-- One decryption round: `temp = left; left = right xor F(left xor k); right = temp`
(42_decrypt.md R141). -/
def decryptRound (b : Block) (k : Word) : Block :=
  { left := b.right ^^^ F (b.left ^^^ k), right := b.left }

/-- `right = right xor left`, the last line of decryption (42_decrypt.md R141). -/
def foldRight (b : Block) : Block := { left := b.left, right := b.right ^^^ b.left }

/-- The document's `decrypt`: whitening, four rounds with K3, K2, K1, K0 in that order, and the
last fold (42_decrypt.md R141). -/
def decryptBlock (c : Block) (k : Subkeys) : Block :=
  foldRight ([k.k3, k.k2, k.k1, k.k0].foldl decryptRound (whiten c k.k4 k.k5))

/-- One encryption round: `(l, r) = (r, l xor F(r xor k))` (42_decrypt.md R144). -/
def encryptRound (b : Block) (k : Word) : Block :=
  { left := b.right, right := b.left ^^^ F (b.right ^^^ k) }

/-- The whitening at the end of encryption: `(r xor K4, l xor r xor K5)` (42_decrypt.md R144). -/
def unwhiten (b : Block) (k4 k5 : Word) : Block :=
  { left := b.right ^^^ k4, right := b.left ^^^ b.right ^^^ k5 }

/-- The derived inverse of decryption, for building test pairs only; the block has no encryption
command (42_decrypt.md R144, 90_conflicts.md C4). -/
def encryptBlock (p : Block) (k : Subkeys) : Block :=
  unwhiten ([k.k0, k.k1, k.k2, k.k3].foldl encryptRound (foldRight p)) k.k4 k.k5

/-- `Y0 = F(PL xor PR xor K0)` (46_derive.md R230). -/
def y0Of (pl pr k0 : Word) : Word := F (pl ^^^ pr ^^^ k0)

/-- `Y1 = F(PL xor Y0 xor K1)` (46_derive.md R230). -/
def y1Of (pl y0 k1 : Word) : Word := F (pl ^^^ y0 ^^^ k1)

/-- `Y2 = F(PL xor PR xor Y1 xor K2)` (46_derive.md R230). -/
def y2Of (pl pr y1 k2 : Word) : Word := F (pl ^^^ pr ^^^ y1 ^^^ k2)

/-- `Y3 = F(PL xor Y0 xor Y2 xor K3)` (46_derive.md R230). -/
def y3Of (pl y0 y2 k3 : Word) : Word := F (pl ^^^ y0 ^^^ y2 ^^^ k3)

/-- The four intermediate round outputs (46_derive.md R230). -/
structure RoundOutputs where
  y0 : Word
  y1 : Word
  y2 : Word
  y3 : Word
deriving DecidableEq, Repr

/-- `ys(PL, PR, K0, K1, K2, K3)` (46_derive.md R230). -/
def ys (pl pr k0 k1 k2 k3 : Word) : RoundOutputs :=
  let y0 := y0Of pl pr k0
  let y1 := y1Of pl y0 k1
  let y2 := y2Of pl pr y1 k2
  { y0 := y0, y1 := y1, y2 := y2, y3 := y3Of pl y0 y2 k3 }

/-- `K4' = PL xor PR xor Y1 xor Y3 xor CL` (46_derive.md R232). -/
def k4Of (pl pr cl : Word) (y : RoundOutputs) : Word := pl ^^^ pr ^^^ y.y1 ^^^ y.y3 ^^^ cl

/-- `K5' = PR xor Y1 xor Y3 xor Y0 xor Y2 xor CR` (46_derive.md R232). -/
def k5Of (pr cr : Word) (y : RoundOutputs) : Word :=
  pr ^^^ y.y1 ^^^ y.y3 ^^^ y.y0 ^^^ y.y2 ^^^ cr

end Sys2Proof.Machine
end

