-- ==== Sys2Proof/Machine/Evaluator.lean ====
section
/-! DEFINITION. The datapath of the eight linear-approximation evaluators, for any table entry
(spec/43_evaluate.md R160 to R162). -/

namespace Sys2Proof.Machine

/-- A KnownPair: the halves of a plaintext and of its ciphertext (10_state.md R31). -/
structure Pair where
  pl : Word
  pr : Word
  cl : Word
  cr : Word
deriving DecidableEq, Repr

/-- The intermediate round outputs an evaluator uses (43_evaluate.md R160). -/
structure EvalOutputs where
  y0 : Word
  y1 : Word
  y2 : Word
deriving DecidableEq, Repr

/-- y0, y1 and y2, computed inside the command from the pair and K0..K2 (43_evaluate.md R160). -/
def evalOutputs (p : Pair) (k0 k1 k2 : Word) : EvalOutputs :=
  let y0 := y0Of p.pl p.pr k0
  let y1 := y1Of p.pl y0 k1
  { y0 := y0, y1 := y1, y2 := y2Of p.pl p.pr y1 k2 }

/-- The transform input selected by `tin` (43_evaluate.md R161). -/
def transformInput (e : ApproxEntry) (p : Pair) (y : EvalOutputs) : Word :=
  selectWord (e.tin.getLsbD 0) p.pl ^^^ selectWord (e.tin.getLsbD 1) p.pr ^^^
    selectWord (e.tin.getLsbD 2) y.y0 ^^^ selectWord (e.tin.getLsbD 3) y.y1 ^^^
    selectWord (e.tin.getLsbD 4) y.y2

/-- The XOR-reduction over the masked operands other than the transform output
(43_evaluate.md R162). -/
def directParity (e : ApproxEntry) (p : Pair) (y : EvalOutputs) : Bool :=
  par (e.mPL &&& p.pl) ^^ par (e.mPR &&& p.pr) ^^ par (e.mCL &&& p.cl) ^^ par (e.mCR &&& p.cr) ^^
    par (e.mY0 &&& y.y0) ^^ par (e.mY1 &&& y.y1) ^^ par (e.mY2 &&& y.y2)

/-- The parity of the masked transform output `t = F(t_in xor CAND)` (43_evaluate.md R161, R162). -/
def transformParity (e : ApproxEntry) (p : Pair) (y : EvalOutputs) (cand : Word) : Bool :=
  par (e.mT &&& F (transformInput e p y ^^^ cand))

/-- The evaluator bit E of a table entry (43_evaluate.md R162). -/
def evalBit (e : ApproxEntry) (p : Pair) (k0 k1 k2 cand : Word) : Bool :=
  directParity e p (evalOutputs p k0 k1 k2) ^^ transformParity e p (evalOutputs p k0 k1 k2) cand

end Sys2Proof.Machine
end

