-- ==== Sys2Proof/Machine/Operands.lean ====
section
/-! DEFINITION. The operand forms: the data registers by name, the subkey a stage names, and the
groups of registers the commands read together (spec/10_state.md R30 to R37, spec/30_encoding.md R93). -/

namespace Sys2Proof.Machine

/-- `x[r]` of a data register (00_scope.md R10, 10_state.md R30). -/
def State.get (s : State) : DataReg → Word
  | .pl => s.pl
  | .pr => s.pr
  | .cl => s.cl
  | .cr => s.cr
  | .k0 => s.k0
  | .k1 => s.k1
  | .k2 => s.k2
  | .k3 => s.k3
  | .k4 => s.k4
  | .k5 => s.k5
  | .cand => s.cand
  | .ink => s.ink
  | .x => s.x
  | .t => s.t
  | .dl => s.dl
  | .dr => s.dr
  | .y0 => s.y0
  | .y1 => s.y1
  | .y2 => s.y2
  | .y3 => s.y3

/-- `x[r] <- v` of a data register (00_scope.md R10, 10_state.md R30). -/
def State.set (s : State) (r : DataReg) (v : Word) : State :=
  match r with
  | .pl => { s with pl := v }
  | .pr => { s with pr := v }
  | .cl => { s with cl := v }
  | .cr => { s with cr := v }
  | .k0 => { s with k0 := v }
  | .k1 => { s with k1 := v }
  | .k2 => { s with k2 := v }
  | .k3 => { s with k3 := v }
  | .k4 => { s with k4 := v }
  | .k5 => { s with k5 := v }
  | .cand => { s with cand := v }
  | .ink => { s with ink := v }
  | .x => { s with x := v }
  | .t => { s with t := v }
  | .dl => { s with dl := v }
  | .dr => { s with dr := v }
  | .y0 => { s with y0 := v }
  | .y1 => { s with y1 := v }
  | .y2 => { s with y2 := v }
  | .y3 => { s with y3 := v }

/-- The subkey register K_s a stage names (30_encoding.md R93). -/
def subkeyReg : Stage → DataReg
  | .k0 => .k0
  | .k1 => .k1
  | .k2 => .k2
  | .k3 => .k3

/-- The loaded KnownPair (10_state.md R31). -/
def State.pair (s : State) : Pair := { pl := s.pl, pr := s.pr, cl := s.cl, cr := s.cr }

/-- The loaded ciphertext block (10_state.md R31). -/
def State.cipherBlock (s : State) : Block := { left := s.cl, right := s.cr }

/-- The loaded plaintext block (10_state.md R31). -/
def State.plainBlock (s : State) : Block := { left := s.pl, right := s.pr }

/-- The loaded SubkeySet (10_state.md R32). -/
def State.subkeys (s : State) : Subkeys :=
  { k0 := s.k0, k1 := s.k1, k2 := s.k2, k3 := s.k3, k4 := s.k4, k5 := s.k5 }

/-- `ys` of the loaded pair and subkeys (46_derive.md R231, R233). -/
def State.roundOutputs (s : State) : RoundOutputs := ys s.pl s.pr s.k0 s.k1 s.k2 s.k3

end Sys2Proof.Machine
end

