-- ==== Sys2Proof/Machine/Ops.lean ====
section
/-! DEFINITION. The named operations over the state: taking an error (the block's two "exceptions",
spec/60_exceptions.md R261 to R267; there is no return from one, R267), the host window's addressing
and register access (spec/20_memory.md R61 to R69), and reset (spec/70_reset_and_hazards.md R290). -/

namespace Sys2Proof.Machine

/-- `raise ILL(w)`: `STATUS.ILL <- 1` and nothing else; no state is saved, no mode changes and no
control flow is redirected (60_exceptions.md R261, R266). -/
def State.raiseIll (s : State) : State := { s with status := s.status.withIll }

/-- `raise HERR(addr)`: `STATUS.HERR <- 1` and nothing else (60_exceptions.md R262, R266). -/
def State.raiseHerr (s : State) : State := { s with status := s.status.withHerr }

/-- `x[EBIT] <- zext_32(b)` (43_evaluate.md R165). -/
def State.setEbit (s : State) (b : Bool) : State := { s with ebit := (BitVec.ofBool b).setWidth 32 }

/-- FILT as a whole (10_state.md R50). -/
def State.setFilt (s : State) (f : Filt) : State := { s with filt := f }

/-- STATUS as a whole (10_state.md R52). -/
def State.setStatus (s : State) (st : Status) : State := { s with status := st }

/-- The value a read returned joins the observation of the run (70_reset_and_hazards.md R297). -/
def State.logRead (s : State) (v : Word) : State := { s with reads := s.reads ++ [v] }

/-- An aligned offset has `addr[1:0] = 0` (20_memory.md R61). -/
def isAligned (addr : BitVec 7) : Bool := addr.extractLsb' 0 2 == 0

/-- The register index of an offset, `addr[6:2]` (20_memory.md R61). -/
def indexOf (addr : BitVec 7) : BitVec 5 := addr.extractLsb' 2 5

/-- The register at an index of the register file; none for the reserved indices 24 to 30
(10_state.md R30, R40). -/
def slotAt (index : BitVec 5) : Option WindowReg :=
  match index.toNat with
  | 0 => some (.data .pl)
  | 1 => some (.data .pr)
  | 2 => some (.data .cl)
  | 3 => some (.data .cr)
  | 4 => some (.data .k0)
  | 5 => some (.data .k1)
  | 6 => some (.data .k2)
  | 7 => some (.data .k3)
  | 8 => some (.data .k4)
  | 9 => some (.data .k5)
  | 10 => some (.data .cand)
  | 11 => some (.data .ink)
  | 12 => some (.data .x)
  | 13 => some (.data .t)
  | 14 => some (.data .dl)
  | 15 => some (.data .dr)
  | 16 => some (.data .y0)
  | 17 => some (.data .y1)
  | 18 => some (.data .y2)
  | 19 => some (.data .y3)
  | 20 => some .ebit
  | 21 => some .filt
  | 22 => some .status
  | 23 => some .id
  | 31 => some .cmd
  | _ => none

/-- The value an aligned read of a register returns (20_memory.md R64). A read of CMD returns 0
(10_state.md R41). -/
def State.readReg (s : State) : WindowReg → Word
  | .data r => s.get r
  | .ebit => (s.ebit.extractLsb' 0 1).setWidth 32
  | .filt => s.filt.toWord
  | .status => s.status.toWord
  | .id => idWord
  | .cmd => 0

/-- A host read, `MemRead(addr, 4)`: the value returned and the state after it. Misalignment is
checked first; a misaligned offset, a reserved index and CMD give 0 and raise HERR; every other read
changes nothing (20_memory.md R63, R64, R69; 60_exceptions.md R262, R265). -/
def hostRead (addr : BitVec 7) (s : State) : Word × State :=
  if isAligned addr = false then (0, s.raiseHerr)
  else
    match slotAt (indexOf addr) with
    | none => (0, s.raiseHerr)
    | some .cmd => (s.readReg .cmd, s.raiseHerr)
    | some r => (s.readReg r, s)

/-- An aligned write of a register other than CMD (20_memory.md R65). ID is read-only: the write
is discarded and raises HERR (10_state.md R53). CMD stores nothing here: the word is run as a
command (20_memory.md R66) by `hostWrite` of Sys2Proof/Machine/Window.lean. -/
def State.writeReg (s : State) (r : WindowReg) (v : Word) : State :=
  match r with
  | .data r => s.set r v
  | .ebit => { s with ebit := (v.extractLsb' 0 1).setWidth 32 }
  | .filt => s.setFilt (Filt.ofWord v)
  | .status => s.setStatus (s.status.clearOnes v)
  | .id => s.raiseHerr
  | .cmd => s

/-- The reset event: every register and field at its reset value, APPROX unchanged
(70_reset_and_hazards.md R290). The host's remaining moves and the values read so far are not the
block's and stay (log entry 4). -/
def State.platformReset (s : State) : State :=
  { State.reset with approx := s.approx, port := s.port, reads := s.reads }

end Sys2Proof.Machine
end

