-- ==== Sys2Proof/Machine/Candidate.lean ====
section
/-! DEFINITION. The candidate maps and the meanings of BUILDI, BUILDO and KSET
(spec/44_candidate.md R190 to R194). -/

namespace Sys2Proof.Machine

/-- `buildInner(i) = ((i >> 6) and 0x3F) << 16 or (i and 0x3F) << 8` (44_candidate.md R190). -/
def buildInner (i : BitVec 12) : Word :=
  (((i.setWidth 32 >>> 6) &&& 0x3F) <<< 16) ||| ((i.setWidth 32 &&& 0x3F) <<< 8)

/-- `a0 = (n[3:2] << 6 + byte_1(ik)) mod 256` (44_candidate.md R191). -/
def outerA0 (n : BitVec 20) (ik : Word) : Byte :=
  ((n.extractLsb' 2 2).setWidth 8 <<< 6) + byte1 ik

/-- `a1 = (n[1:0] << 6 + byte_2(ik)) mod 256` (44_candidate.md R191). -/
def outerA1 (n : BitVec 20) (ik : Word) : Byte :=
  ((n.extractLsb' 0 2).setWidth 8 <<< 6) + byte2 ik

/-- `b0 = n[19:12]` (44_candidate.md R191, 90_conflicts.md C1). -/
def outerB0 (n : BitVec 20) : Byte := n.extractLsb' 12 8

/-- `b3 = n[11:4]` (44_candidate.md R191, 90_conflicts.md C1). -/
def outerB3 (n : BitVec 20) : Byte := n.extractLsb' 4 8

/-- `buildOuter(n, ik)`, with `b1 = b0 xor a0` and `b2 = b3 xor a1` (44_candidate.md R191). -/
def buildOuter (n : BitVec 20) (ik : Word) : Word :=
  cat8 (outerB0 n) (outerB0 n ^^^ outerA0 n ik) (outerB3 n ^^^ outerA1 n ik) (outerB3 n)

/-- BUILDI #n: CAND and INK become the inner candidate (44_candidate.md R192). -/
def execBuildi (n : BitVec 12) (s : State) : Result :=
  .next { s with cand := buildInner n, ink := buildInner n }

/-- BUILDO #n: CAND becomes the outer candidate of the inner key INK (44_candidate.md R193). -/
def execBuildo (n : BitVec 20) (s : State) : Result :=
  .next { s with cand := buildOuter n s.ink }

/-- KSET Ks: `x[K_s] <- x[CAND]` (44_candidate.md R194). -/
def execKset (stage : Stage) (s : State) : Result := .next (s.set (subkeyReg stage) s.cand)

end Sys2Proof.Machine
end

