-- ==== Sys2Proof/Machine/Decrypt.lean ====
section
/-! DEFINITION. The meanings of DECRYPT and DECRYPT.A (spec/42_decrypt.md R142, R143). -/

namespace Sys2Proof.Machine

/-- The decryption of the loaded ciphertext under the loaded subkeys (42_decrypt.md R142). -/
def State.decrypted (s : State) : Block := decryptBlock s.cipherBlock s.subkeys

/-- The validation compare: exact equality of both halves (42_decrypt.md R143). -/
def State.decryptMatches (s : State) : Bool :=
  s.decrypted.left == s.pl && s.decrypted.right == s.pr

/-- What both forms do: DL, DR and MATCH (42_decrypt.md R142). -/
def State.decryptStep (s : State) : State :=
  { s with
    dl := s.decrypted.left
    dr := s.decrypted.right
    filt := s.filt.recordMatch s.decryptMatches }

/-- DECRYPT, ACC = 0: VOK is left alone (42_decrypt.md R142). -/
def execDecrypt (s : State) : Result := .next s.decryptStep

/-- DECRYPT.A, ACC = 1: the match is also folded into VOK (42_decrypt.md R142, 45_filter.md R212). -/
def execDecryptA (s : State) : Result :=
  .next (s.decryptStep.setFilt (s.decryptStep.filt.validate s.decryptMatches))

end Sys2Proof.Machine
end

