-- ==== Sys2Proof/Machine/Derive.lean ====
section
/-! DEFINITION. The meanings of YGEN and KDERIVE (spec/46_derive.md R231, R233). -/

namespace Sys2Proof.Machine

/-- Y0..Y3 become the given round outputs (46_derive.md R231). -/
def State.setYs (s : State) (y : RoundOutputs) : State :=
  { s with y0 := y.y0, y1 := y.y1, y2 := y.y2, y3 := y.y3 }

/-- YGEN: `(x[Y0], .., x[Y3]) <- ys(..)` (46_derive.md R231). -/
def execYgen (s : State) : Result := .next (s.setYs s.roundOutputs)

/-- KDERIVE: Y0..Y3, and K4 and K5 from the loaded pair; all reads use the values from before the
command (46_derive.md R233). -/
def execKderive (s : State) : Result :=
  .next { s.setYs s.roundOutputs with
    k4 := k4Of s.pl s.pr s.cl s.roundOutputs
    k5 := k5Of s.pr s.cr s.roundOutputs }

end Sys2Proof.Machine
end

