-- ==== Sys2Proof/Machine/Evaluate.lean ====
section
/-! DEFINITION. The meanings of EVAL and EVAL.A (spec/43_evaluate.md R165). -/

namespace Sys2Proof.Machine

/-- `E(s, v)` on the loaded pair, K0..K2, CAND and the block's table. The Y registers are not read
(43_evaluate.md R160 to R162, 10_state.md R37). -/
def State.evaluator (s : State) (stage : Stage) (v : Variant) : Bool :=
  evalBit (approxEntry s.approx stage v) s.pair s.k0 s.k1 s.k2 s.cand

/-- EVAL, ACC = 0: `x[EBIT] <- zext_32(b)`, FILT unchanged (43_evaluate.md R165). -/
def execEval (stage : Stage) (v : Variant) (s : State) : Result :=
  .next (s.setEbit (s.evaluator stage v))

/-- EVAL.A, ACC = 1: the bit is also folded into the constancy filter (43_evaluate.md R165,
45_filter.md R211). -/
def execEvalA (stage : Stage) (v : Variant) (s : State) : Result :=
  .next ((s.setEbit (s.evaluator stage v)).setFilt (s.filt.accumulate (s.evaluator stage v)))

end Sys2Proof.Machine
end

