-- ==== Sys2Proof/Machine/Filter.lean ====
section
/-! DEFINITION. The meaning of FCLR (spec/45_filter.md R213). -/

namespace Sys2Proof.Machine

/-- FCLR: all five fields of FILT take their cleared values (45_filter.md R213). -/
def execFclr (s : State) : Result := .next (s.setFilt Filt.cleared)

end Sys2Proof.Machine
end

