-- ==== Sys2Proof/Machine/Misc.lean ====
section
/-! DEFINITION. The meaning of NOP (spec/47_misc.md R250). -/

namespace Sys2Proof.Machine

/-- NOP: the state is unchanged (47_misc.md R250). -/
def execNop (s : State) : Result := .next s

end Sys2Proof.Machine
end

