-- ==== Sys2Proof/Machine/Transform.lean ====
section
/-! DEFINITION. The meaning of XFORM (spec/41_transform.md R124). -/

namespace Sys2Proof.Machine

/-- XFORM: `x[T] <- F(x[X])` (41_transform.md R124). -/
def execXform (s : State) : Result := .next { s with t := F s.x }

end Sys2Proof.Machine
end

