-- ==== Sys2Proof/Machine/Dispatch.lean ====
section
/-! DEFINITION. The meaning of each command, one arm per constructor (spec/30_encoding.md R92). -/

namespace Sys2Proof.Machine

/-- Run one command (20_memory.md R66). -/
def exec (i : Instr) (s : State) : Host.Outcome State Fault Refusal :=
  match i with
  | .nop => Sys2Proof.Machine.execNop s
  | .xform => Sys2Proof.Machine.execXform s
  | .decrypt => Sys2Proof.Machine.execDecrypt s
  | .decryptA => Sys2Proof.Machine.execDecryptA s
  | .eval stage v => Sys2Proof.Machine.execEval stage v s
  | .evalA stage v => Sys2Proof.Machine.execEvalA stage v s
  | .buildi n => Sys2Proof.Machine.execBuildi n s
  | .buildo n => Sys2Proof.Machine.execBuildo n s
  | .kset stage => Sys2Proof.Machine.execKset stage s
  | .ygen => Sys2Proof.Machine.execYgen s
  | .kderive => Sys2Proof.Machine.execKderive s
  | .fclr => Sys2Proof.Machine.execFclr s

end Sys2Proof.Machine
end

