-- ==== Sys2Proof/Machine/Window.lean ====
section
/-! DEFINITION. Accepting one host move: a window read, a window write, which runs a command when it
reaches CMD, or a reset (spec/20_memory.md R63 to R66, spec/70_reset_and_hazards.md R290, R298). -/

namespace Sys2Proof.Machine

/-- A word written to CMD: a legal word is run as one command, an illegal one raises ILL and is not
executed (20_memory.md R66, 30_encoding.md R99). -/
def runCommand (w : Word) (s : State) : Result :=
  match decode w with
  | .ok i => exec i s
  | .error _ => .next s.raiseIll

/-- A host write, `MemWrite(addr, 4, v)`. Misalignment is checked first and raises HERR, even at
CMD; a reserved index raises HERR; CMD runs the word; every other register is written
(20_memory.md R63, R65; 60_exceptions.md R265). -/
def hostWrite (addr : BitVec 7) (v : Word) (s : State) : Result :=
  if isAligned addr = false then .next s.raiseHerr
  else
    match slotAt (indexOf addr) with
    | none => .next s.raiseHerr
    | some .cmd => runCommand v s
    | some r => .next (s.writeReg r v)

/-- The block accepts one move and completes it before the next (20_memory.md R75,
70_reset_and_hazards.md R298). -/
def accept (m : HostMove) (s : State) : Result :=
  match m with
  | .read addr => .next ((hostRead addr s).2.logRead (hostRead addr s).1)
  | .write addr v => hostWrite addr v s
  | .reset => .next s.platformReset

/-- One step: the port's next move, taken off the port, is accepted; with no move waiting the block
waits for the host and nothing changes (20_memory.md R75; 70_reset_and_hazards.md R291, log entry 3). -/
def stepPort (s : State) : Result :=
  match s.port with
  | [] => .next s
  | m :: rest => accept m { s with port := rest }

/-- The offset of CMD in the window, index 31 (10_state.md R30). -/
def cmdOffset : BitVec 7 := 0x7C

/-- The move that delivers a command word (20_memory.md R66). -/
def commandMove (w : Word) : HostMove := .write cmdOffset w

end Sys2Proof.Machine
end

