-- ==== Sys2Proof/Machine/Step.lean ====
section
/-! DEFINITION. The step of the machine, and how a command word is placed where the next step takes
it from (spec/20_memory.md R66, spec/70_reset_and_hazards.md R297; log entry 9). -/

namespace Sys2Proof.Machine

/-- One step of the block: the next host move is accepted (20_memory.md R75). -/
def step (s : State) : Host.Outcome State Fault Refusal := stepPort s

/-- The state with the host's write of a command word put first at the port, so that the next step
runs that command. The word is numbered as spec/opcode_table.json numbers it; the block has no
program counter and no instruction memory (10_state.md R34; log entry 9). -/
def State.withFetchWord (s : State) (nbits w : Nat) : State :=
  { s with port := commandMove (BitVec.ofNat 32 (w % 2 ^ nbits)) :: s.port }

end Sys2Proof.Machine
end

