-- ==== Sys2Proof/Machine/HostProgram.lean ====
section
/-! DEFINITION. Host instructions and pseudo-operations, each expanded to window accesses
(spec/30_encoding.md R103). -/

namespace Sys2Proof.Machine

/-- The index of a named register (10_state.md R30). -/
def regIndex : WindowReg → BitVec 5
  | .data .pl => 0
  | .data .pr => 1
  | .data .cl => 2
  | .data .cr => 3
  | .data .k0 => 4
  | .data .k1 => 5
  | .data .k2 => 6
  | .data .k3 => 7
  | .data .k4 => 8
  | .data .k5 => 9
  | .data .cand => 10
  | .data .ink => 11
  | .data .x => 12
  | .data .t => 13
  | .data .dl => 14
  | .data .dr => 15
  | .data .y0 => 16
  | .data .y1 => 17
  | .data .y2 => 18
  | .data .y3 => 19
  | .ebit => 20
  | .filt => 21
  | .status => 22
  | .id => 23
  | .cmd => 31

/-- The byte offset of a named register, `4*index` (10_state.md R30). -/
def regOffset (r : WindowReg) : BitVec 7 := regIndex r ++ (0 : BitVec 2)

/-- A host instruction or pseudo-operation (30_encoding.md R103). -/
inductive HostOp where
  /-- `WR reg, v`. -/
  | wr (r : WindowReg) (v : Word)
  /-- `RD reg`. -/
  | rd (r : WindowReg)
  /-- `CMD w`: the raw word, legal or not. -/
  | cmd (w : Word)
  /-- Any command mnemonic of R102. -/
  | command (i : Instr)
  /-- `LDPAIR pl, pr, cl, cr`. -/
  | ldpair (p : Pair)
  /-- `LDKEYS k0, k1, k2, k3, k4, k5`. -/
  | ldkeys (k : Subkeys)
  /-- `CLRERR`. -/
  | clrerr
deriving DecidableEq, Repr

/-- One host write of a named register. -/
def wrMove (r : WindowReg) (v : Word) : HostMove := .write (regOffset r) v

/-- The accesses a host instruction stands for (30_encoding.md R103). -/
def expand : HostOp → List HostMove
  | .wr r v => [wrMove r v]
  | .rd r => [.read (regOffset r)]
  | .cmd w => [wrMove .cmd w]
  | .command i => [wrMove .cmd (encode i)]
  | .ldpair p =>
    [wrMove (.data .pl) p.pl, wrMove (.data .pr) p.pr, wrMove (.data .cl) p.cl,
      wrMove (.data .cr) p.cr]
  | .ldkeys k =>
    [wrMove (.data .k0) k.k0, wrMove (.data .k1) k.k1, wrMove (.data .k2) k.k2,
      wrMove (.data .k3) k.k3, wrMove (.data .k4) k.k4, wrMove (.data .k5) k.k5]
  | .clrerr => [wrMove .status 0x00000003]

/-- A host program is a list of host accesses (30_encoding.md R103). -/
def expandProgram (ops : List HostOp) : List HostMove := ops.flatMap expand

end Sys2Proof.Machine
end

