-- ==== Sys2Proof/Safety.lean ====
section
/-! DEFINITION. Runs, what the host observes of one, and when a run is free of errors
(spec/70_reset_and_hazards.md R297). -/

namespace Sys2Proof

open Sys2Proof.Machine

/-- The host issues a list of moves from a state, each accepted in list order
(70_reset_and_hazards.md R297). -/
def runMoves (moves : List HostMove) (s : State) : Result :=
  Host.Core.run core moves.length { s with port := moves }

/-- A run: a reset followed by a finite list of host moves (70_reset_and_hazards.md R297). -/
def runFromReset (moves : List HostMove) : Result := runMoves moves State.reset

/-- The "final register file" of an observation (70_reset_and_hazards.md R297): slots 0 to 20 of
10_state.md R30, each as an aligned read returns it. DESIGN CHOICE (log entry 12): R297 does not say
which of the 32 slots it means. FILT and STATUS, slots 21 and 22, it names beside the register file;
ID, the reserved indices and CMD hold no storage and are left out. Safe: those always read the same. -/
def registerFile (s : State) : List Word :=
  [s.pl, s.pr, s.cl, s.cr, s.k0, s.k1, s.k2, s.k3, s.k4, s.k5, s.cand, s.ink, s.x, s.t, s.dl, s.dr,
    s.y0, s.y1, s.y2, s.y3, s.readReg .ebit]

/-- The observation of a run: the values its reads returned, and the final register file, FILT and
STATUS (70_reset_and_hazards.md R297; which slots the register file has is log entry 12). -/
structure Observation where
  reads : List Word
  registers : List Word
  filt : Word
  status : Word
deriving DecidableEq, Repr

def observe (s : State) : Observation where
  reads := s.reads
  registers := registerFile s
  filt := s.filt.toWord
  status := s.status.toWord

/-- A state that no error since the last clear has reached: STATUS = 0. A claim that needs an
error-free run takes this of the last state as a premise (70_reset_and_hazards.md R297). -/
def errorFree (s : State) : Bool := !s.status.ill && !s.status.herr

end Sys2Proof
end

