-- ==== Sys2Proof/Certificates/Slice0/Obligations.lean ====
section
/-! DEFINITION. The statements for the provers, taken from the numbered rules of spec/. -/

open Sys2Proof Sys2Proof.Machine

/-! ## Words the statements share -/

/-- The word runs as the command: written to CMD (offset 0x7C, 20_memory.md R66) it decodes to `i`
and does what `exec i` does, in every state. -/
def Sys2Proof.Claims.RunsAs (w : Word) (i : Instr) : Prop :=
  decode w = .ok i ∧ ∀ s, hostWrite 0x7C w s = exec i s

/-- The word is illegal: written to CMD it sets STATUS.ILL and changes nothing else, in every state
(60_exceptions.md R261). -/
def Sys2Proof.Claims.RaisesIll (w : Word) : Prop :=
  ∀ s : State, hostWrite 0x7C w s = .next { s with status := { s.status with ill := true } }

/-- OP, bits 31:28 of a command word (30_encoding.md R91). -/
def Sys2Proof.Claims.opOf (w : Word) : BitVec 4 := w.extractLsb' 28 4

/-- The document's test key (44_candidate.md R197, 42_decrypt.md R142). -/
def Sys2Proof.Claims.testKey : Subkeys :=
  { k0 := 0x01234567, k1 := 0x89ABCDEF, k2 := 0xFEDCBA98, k3 := 0x76543210, k4 := 0x11111111,
    k5 := 0x22222222 }

/-- A state with the given pair and subkeys loaded, else as after reset. -/
def Sys2Proof.Claims.loaded (p : Pair) (k : Subkeys) : State :=
  { State.reset with
    pl := p.pl, pr := p.pr, cl := p.cl, cr := p.cr, k0 := k.k0, k1 := k.k1, k2 := k.k2, k3 := k.k3,
    k4 := k.k4, k5 := k.k5 }

/-- The known pair of a plaintext block under a key (42_decrypt.md R144). -/
def Sys2Proof.Claims.pairUnder (k : Subkeys) (p : Block) : Pair :=
  { pl := p.left, pr := p.right, cl := (encryptBlock p k).left, cr := (encryptBlock p k).right }

/-- The subkey a stage looks for (30_encoding.md R93). -/
def Sys2Proof.Claims.stageKey (k : Subkeys) : Stage → Word
  | .k0 => k.k0
  | .k1 => k.k1
  | .k2 => k.k2
  | .k3 => k.k3

/-- The registers K0..K2 hold the key's subkeys of the stages before the given one
(43_evaluate.md R160, R166). -/
def Sys2Proof.Claims.FixedBefore (stage : Stage) (k : Subkeys) (k0 k1 k2 : Word) : Prop :=
  (0 < stageNumber stage → k0 = k.k0) ∧ (1 < stageNumber stage → k1 = k.k1) ∧
    (2 < stageNumber stage → k2 = k.k2)

/-- The inner class of index i: `(byte_0(c) xor byte_1(c)) mod 64 = i[11:6]` and
`(byte_2(c) xor byte_3(c)) mod 64 = i[5:0]` (44_candidate.md R196). -/
def Sys2Proof.Claims.InClass (i : BitVec 12) (c : Word) : Prop :=
  (byte0 c ^^^ byte1 c).toNat % 64 = i.toNat / 64 ∧ (byte2 c ^^^ byte3 c).toNat % 64 = i.toNat % 64

/-- The default evaluator bit E(s, v) (43_evaluate.md R162, R163). -/
def Sys2Proof.Claims.defaultBit (stage : Stage) (v : Variant) (p : Pair) (k0 k1 k2 cand : Word) :
    Bool :=
  evalBit (approxEntry defaultApprox stage v) p k0 k1 k2 cand

/-- The 24 offsets whose read does not err, with the value each returns (20_memory.md R64). -/
def Sys2Proof.Claims.readTable (s : State) : List (BitVec 7 × Word) :=
  [(0x00, s.pl), (0x04, s.pr), (0x08, s.cl), (0x0C, s.cr), (0x10, s.k0), (0x14, s.k1),
    (0x18, s.k2), (0x1C, s.k3), (0x20, s.k4), (0x24, s.k5), (0x28, s.cand), (0x2C, s.ink),
    (0x30, s.x), (0x34, s.t), (0x38, s.dl), (0x3C, s.dr), (0x40, s.y0), (0x44, s.y1),
    (0x48, s.y2), (0x4C, s.y3), (0x50, if s.ebit.getLsbD 0 then 1 else 0),
    (0x54, BitVec.ofNat 32 (16 * s.filt.vok.toNat + 8 * s.filt.matched.toNat +
      4 * s.filt.ok.toNat + 2 * s.filt.ref.toNat + s.filt.seen.toNat)),
    (0x58, BitVec.ofNat 32 (2 * s.status.herr.toNat + s.status.ill.toNat)), (0x5C, 0x46344C41)]

/-- The 23 offsets whose write stores something, with the state after it (20_memory.md R65). -/
def Sys2Proof.Claims.writeTable (s : State) (v : Word) : List (BitVec 7 × State) :=
  [(0x00, { s with pl := v }), (0x04, { s with pr := v }), (0x08, { s with cl := v }),
    (0x0C, { s with cr := v }), (0x10, { s with k0 := v }), (0x14, { s with k1 := v }),
    (0x18, { s with k2 := v }), (0x1C, { s with k3 := v }), (0x20, { s with k4 := v }),
    (0x24, { s with k5 := v }), (0x28, { s with cand := v }), (0x2C, { s with ink := v }),
    (0x30, { s with x := v }), (0x34, { s with t := v }), (0x38, { s with dl := v }),
    (0x3C, { s with dr := v }), (0x40, { s with y0 := v }), (0x44, { s with y1 := v }),
    (0x48, { s with y2 := v }), (0x4C, { s with y3 := v }),
    (0x50, { s with ebit := if v.getLsbD 0 then 1 else 0 }),
    (0x54, { s with filt :=
      { seen := v.getLsbD 0, ref := v.getLsbD 1, ok := v.getLsbD 2, matched := v.getLsbD 3,
        vok := v.getLsbD 4 } }),
    (0x58, { s with status :=
      { ill := if v.getLsbD 0 then false else s.status.ill,
        herr := if v.getLsbD 1 then false else s.status.herr } })]

/-- Offsets of reserved indices 24 to 30 (10_state.md R40). -/
def Sys2Proof.Claims.reservedOffset (a : BitVec 7) : Prop := 24 ≤ a.toNat / 4 ∧ a.toNat / 4 ≤ 30

/-- The moves that raise HERR: exactly the four cases of 60_exceptions.md R262. -/
def Sys2Proof.Claims.ErringMove : HostMove → Prop
  | .read a => a.toNat % 4 ≠ 0 ∨ Sys2Proof.Claims.reservedOffset a ∨ a = 0x7C
  | .write a _ => a.toNat % 4 ≠ 0 ∨ Sys2Proof.Claims.reservedOffset a ∨ a = 0x5C
  | .reset => False

/-- What a move adds to the values read when it errs: an erring read returns 0
(60_exceptions.md R262). -/
def Sys2Proof.Claims.erringValue : HostMove → List Word
  | .read _ => [0]
  | .write _ _ => []
  | .reset => []

/-- The moves that can set FILT.OK or FILT.VOK back to 1: FCLR, reset, a host write of FILT
(45_filter.md R215). -/
def Sys2Proof.Claims.MayRearm (m : HostMove) : Prop :=
  m = .reset ∨ m = .write 0x7C 0x90000000 ∨ ∃ v, m = .write 0x54 v

/-- The program of 45_filter.md R214: FCLR, then for each pair LDPAIR and EVAL.A. -/
def Sys2Proof.Claims.filterProgram (stage : Stage) (v : Variant) (pairs : List Pair) :
    List HostOp :=
  .command .fclr :: pairs.flatMap fun p => [.ldpair p, .command (.evalA stage v)]

/-- The program of 45_filter.md R216: FCLR, then for each pair LDPAIR and DECRYPT.A. -/
def Sys2Proof.Claims.validationProgram (pairs : List Pair) : List HostOp :=
  .command .fclr :: pairs.flatMap fun p => [.ldpair p, .command .decryptA]

/-- The command a move runs, if it is a legal word written to CMD (20_memory.md R66). -/
def Sys2Proof.Claims.commandOf : HostMove → Option Instr
  | .write a w => if a = 0x7C then (decode w).toOption else none
  | .read _ => none
  | .reset => none

/-- The evaluator bit a move accumulates, if it runs EVAL.A: that of the pair, candidate and subkeys
the registers hold when it is accepted (45_filter.md R211). -/
def Sys2Proof.Claims.accumulatedBy (m : HostMove) (s : State) : List Bool :=
  match Sys2Proof.Claims.commandOf m with
  | some (.evalA stage v) => [s.evaluator stage v]
  | _ => []

/-- The compare a move folds into VOK, if it runs DECRYPT.A: that of the pair and subkeys the
registers hold when it is accepted (45_filter.md R212). -/
def Sys2Proof.Claims.validatedBy (m : HostMove) (s : State) : List Bool :=
  match Sys2Proof.Claims.commandOf m with
  | some .decryptA => [decide (decryptBlock s.cipherBlock s.subkeys = s.plainBlock)]
  | _ => []

/-- What a list of moves adds, move by move, each seen at the state that accepts it. -/
def Sys2Proof.Claims.gathered (item : HostMove → State → List Bool) :
    List HostMove → State → List Bool
  | [], _ => []
  | m :: rest, s =>
    match accept m s with
    | .next t => item m s ++ Sys2Proof.Claims.gathered item rest t
    | _ => item m s

/-- The evaluator bits a list of moves accumulates, one for each EVAL.A. -/
def Sys2Proof.Claims.accumulated : List HostMove → State → List Bool :=
  Sys2Proof.Claims.gathered Sys2Proof.Claims.accumulatedBy

/-- The compares a list of moves folds into VOK, one for each DECRYPT.A. -/
def Sys2Proof.Claims.validated : List HostMove → State → List Bool :=
  Sys2Proof.Claims.gathered Sys2Proof.Claims.validatedBy

/-- FILT records the bits accumulated since the last FCLR: "SEEN = 1 and REF = b_first and OK = (all
accumulated bits equal b_first)"; with none, SEEN = 0 and OK = 1 (45_filter.md R214). -/
def Sys2Proof.Claims.FilterRecords (f : Filt) : List Bool → Prop
  | [] => f.seen = false ∧ f.ok = true
  | b :: rest => f.seen = true ∧ f.ref = b ∧ (f.ok = true ↔ ∀ c ∈ b :: rest, c = b)

/-- VOK records the compares since the last FCLR: it is 1 iff every one matched (45_filter.md R216). -/
def Sys2Proof.Claims.ValidationRecords (f : Filt) (compares : List Bool) : Prop :=
  f.vok = true ↔ ∀ c ∈ compares, c = true

/-- The registers a command writes: the column "written by commands" of 10_state.md R30. -/
def Sys2Proof.Claims.writtenBy : Instr → List WindowReg
  | .nop => []
  | .xform => [.data .t]
  | .decrypt => [.data .dl, .data .dr, .filt]
  | .decryptA => [.data .dl, .data .dr, .filt]
  | .eval _ _ => [.ebit]
  | .evalA _ _ => [.ebit, .filt]
  | .buildi _ => [.data .cand, .data .ink]
  | .buildo _ => [.data .cand]
  | .kset .k0 => [.data .k0]
  | .kset .k1 => [.data .k1]
  | .kset .k2 => [.data .k2]
  | .kset .k3 => [.data .k3]
  | .ygen => [.data .y0, .data .y1, .data .y2, .data .y3]
  | .kderive => [.data .y0, .data .y1, .data .y2, .data .y3, .data .k4, .data .k5]
  | .fclr => [.filt]

/-- The moves that may write a register: a reset, a host write of it, a command that writes it, and
for STATUS an erring move or an illegal word. Nothing writes ID or CMD, which have no storage
(10_state.md R30, R41, R53; 20_memory.md R69). -/
def Sys2Proof.Claims.MayWrite (m : HostMove) (r : WindowReg) : Prop :=
  r ≠ .id ∧ r ≠ .cmd ∧
    (m = .reset ∨ (∃ v, m = .write (regOffset r) v) ∨
      (∃ w i, m = .write 0x7C w ∧ decode w = .ok i ∧ r ∈ Sys2Proof.Claims.writtenBy i) ∨
      (r = .status ∧
        (Sys2Proof.Claims.ErringMove m ∨ ∃ w e, m = .write 0x7C w ∧ decode w = .error e)))

/-- The value a host write of `v` leaves a read of the register to return: all of it, bit 0, bits
4:0, the flags it does not clear, or what reads of ID and CMD always return (20_memory.md R64, R65). -/
def Sys2Proof.Claims.leftByWrite (s : State) (v : Word) : WindowReg → Word
  | .data _ => v
  | .ebit => v &&& 0x00000001
  | .filt => v &&& 0x0000001F
  | .status => BitVec.ofNat 32 (2 * s.status.herr.toNat + s.status.ill.toNat) &&& ~~~v
  | .id => 0x46344C41
  | .cmd => 0x00000000

open Sys2Proof.Claims

/-! ## The cipher's functions -/

/-- 00_scope.md R7: the bit positions of the document against the masks of the table. -/
def Obligations.PositionsAreMaskedParity : Prop :=
  (∀ (p : Nat) (v : Word), p < 32 → bitAt p v = v.getLsbD (31 - p)) ∧
  ∀ (ps : List Nat) (v : Word), ps.Nodup → (∀ p ∈ ps, p < 32) →
    bitsAt ps v = par (v &&& posMask ps) ∧
    ∀ i, i < 32 → (posMask ps).getLsbD (31 - i) = decide (i ∈ ps)

/-- 00_scope.md R8: the bytes of a Word32, most significant first, and cat8. -/
def Obligations.BytesMostSignificantFirst : Prop :=
  (∀ v : Word,
    (byte0 v).toNat = v.toNat / 2 ^ 24 ∧ (byte1 v).toNat = v.toNat / 2 ^ 16 % 256 ∧
    (byte2 v).toNat = v.toNat / 2 ^ 8 % 256 ∧ (byte3 v).toNat = v.toNat % 256) ∧
  ∀ a b c d : Byte,
    (cat8 a b c d).toNat = a.toNat * 2 ^ 24 + b.toNat * 2 ^ 16 + c.toNat * 2 ^ 8 + d.toNat

/-- 41_transform.md R120. -/
def Obligations.RotateLeftByTwo : Prop :=
  (∀ a : Byte,
    (rotl2 a).toNat = (a.toNat * 4 ||| a.toNat / 64) % 256 ∧
    ∀ i, i < 8 → (rotl2 a).getLsbD i = a.getLsbD ((i + 6) % 8)) ∧
  rotl2 0x01 = 0x04 ∧ rotl2 0x80 = 0x02 ∧ rotl2 0xC0 = 0x03 ∧ rotl2 0x3F = 0xFC

/-- 41_transform.md R121. -/
def Obligations.ByteSumsDropTheCarry : Prop :=
  (∀ a b : Byte,
    sub0 a b = rotl2 (BitVec.ofNat 8 ((a.toNat + b.toNat) % 256)) ∧
    sub1 a b = rotl2 (BitVec.ofNat 8 ((a.toNat + b.toNat + 1) % 256))) ∧
  sub0 0xFF 0x01 = 0x00 ∧ sub1 0xFF 0x00 = 0x00 ∧ sub1 0xFF 0xFF = 0xFF ∧ sub0 0xFF 0xFF = 0xFB

/-- 41_transform.md R122: every byte of F(x), in dependency order. -/
def Obligations.TransformByteByByte : Prop :=
  ∀ x : Word,
    byte1 (F x) = sub1 (byte1 x ^^^ byte0 x) (byte2 x ^^^ byte3 x) ∧
    byte0 (F x) = sub0 (byte0 x) (byte1 (F x)) ∧
    byte2 (F x) = sub0 (byte1 (F x)) (byte2 x ^^^ byte3 x) ∧
    byte3 (F x) = sub1 (byte2 (F x)) (byte3 x) ∧
    F x = cat8 (byte0 (F x)) (byte1 (F x)) (byte2 (F x)) (byte3 (F x))

/-- 41_transform.md R125: the five exact bit relations of F. -/
def Obligations.TransformBitRelations : Prop :=
  ∀ x : Word,
    bitsAt [13] (F x) = (bitsAt [7, 15, 23, 31] x ^^ true) ∧
    bitsAt [5, 15] (F x) = bitsAt [7] x ∧
    bitsAt [15, 21] (F x) = bitsAt [23, 31] x ∧
    bitsAt [23, 29] (F x) = (bitsAt [31] x ^^ true) ∧
    bitsAt [5, 13, 21] (F x) = (bitsAt [15] x ^^ true)

/-- 41_transform.md R126: the two difference relations, and the equivalent subkey tuples. -/
def Obligations.TransformDifferencesAndTwinKeys : Prop :=
  (∀ x : Word,
    F (x ^^^ 0x80800000) = F x ^^^ 0x02000000 ∧ F (x ^^^ 0x00008080) = F x ^^^ 0x00000002) ∧
  ∀ (c : Block) (k : Subkeys),
    decryptBlock c
      { k0 := k.k0 ^^^ 0x80800000, k1 := k.k1 ^^^ 0x02000000, k2 := k.k2,
        k3 := k.k3 ^^^ 0x02000000, k4 := k.k4, k5 := k.k5 ^^^ 0x02000000 } = decryptBlock c k

/-- 42_decrypt.md R140, R141: whitening, the rounds with K3, K2, K1, K0, and the last fold. -/
def Obligations.DecryptionRoundByRound : Prop :=
  ∀ (c : Block) (k : Subkeys),
    let right := c.left ^^^ k.k4
    let left := right ^^^ c.right ^^^ k.k5
    let left1 := right ^^^ F (left ^^^ k.k3)
    let left2 := left ^^^ F (left1 ^^^ k.k2)
    let left3 := left1 ^^^ F (left2 ^^^ k.k1)
    let left4 := left2 ^^^ F (left3 ^^^ k.k0)
    whiten c k.k4 k.k5 = { left := left, right := right } ∧
    decryptBlock c k = { left := left4, right := left3 ^^^ left4 }

/-- 42_decrypt.md R144: the derived encryption, written out, and that the two are inverses. -/
def Obligations.EncryptionInvertsDecryption : Prop :=
  ∀ (b : Block) (k : Subkeys),
    (let l0 := b.left
     let r0 := b.left ^^^ b.right
     let r1 := l0 ^^^ F (r0 ^^^ k.k0)
     let r2 := r0 ^^^ F (r1 ^^^ k.k1)
     let r3 := r1 ^^^ F (r2 ^^^ k.k2)
     let r4 := r2 ^^^ F (r3 ^^^ k.k3)
     encryptBlock b k = { left := r4 ^^^ k.k4, right := r3 ^^^ r4 ^^^ k.k5 }) ∧
    (let y := ys b.left b.right k.k0 k.k1 k.k2 k.k3
     (encryptBlock b k).left = b.left ^^^ b.right ^^^ y.y1 ^^^ y.y3 ^^^ k.k4 ∧
     (encryptBlock b k).right = b.right ^^^ y.y0 ^^^ y.y1 ^^^ y.y2 ^^^ y.y3 ^^^ k.k5) ∧
    decryptBlock (encryptBlock b k) k = b ∧ encryptBlock (decryptBlock b k) k = b

/-! ## The commands, one rule each -/

/-- 47_misc.md R250. -/
def Obligations.NopRule : Prop :=
  RunsAs 0x00000000 .nop ∧ (∀ s, exec .nop s = .next s) ∧
  ∀ w, opOf w = 0x0 → w ≠ 0x00000000 → RaisesIll w

/-- 41_transform.md R124. -/
def Obligations.XformRule : Prop :=
  RunsAs 0x10000000 .xform ∧ (∀ s, exec .xform s = .next { s with t := F s.x }) ∧
  (∀ w, opOf w = 0x1 → w ≠ 0x10000000 → RaisesIll w) ∧
  F 0 = 0x10041044 ∧ F 0xFFFFFFFF = 0x0C041040 ∧ F 0x01234567 = 0x5815DC11

/-- 42_decrypt.md R142, with the updates of 45_filter.md R212. -/
def Obligations.DecryptRule : Prop :=
  RunsAs 0x20000000 .decrypt ∧ RunsAs 0x21000000 .decryptA ∧
  (∀ s : State,
    let d := decryptBlock { left := s.cl, right := s.cr }
      { k0 := s.k0, k1 := s.k1, k2 := s.k2, k3 := s.k3, k4 := s.k4, k5 := s.k5 }
    let m := decide (d.left = s.pl ∧ d.right = s.pr)
    exec .decrypt s =
      .next { s with dl := d.left, dr := d.right, filt := { s.filt with matched := m } } ∧
    exec .decryptA s =
      .next { s with
        dl := d.left, dr := d.right
        filt := { s.filt with matched := m, vok := s.filt.vok && m } }) ∧
  (∀ w, opOf w = 0x2 → w ≠ 0x20000000 → w ≠ 0x21000000 → RaisesIll w) ∧
  decryptBlock ⟨0, 0⟩ ⟨0, 0, 0, 0, 0, 0⟩ = ⟨0xFFE37998, 0xFBC873F3⟩ ∧
  decryptBlock ⟨0xF4C3198E, 0x39073A30⟩ testKey = ⟨0, 0⟩ ∧
  ∀ s : State, s.pl = 0 → s.pr = 0 → s.cl = 0xF4C3198E → s.cr = 0x39073A30 →
    s.subkeys = testKey →
    exec .decrypt s = .next { s with dl := 0, dr := 0, filt := { s.filt with matched := true } }

/-- 43_evaluate.md R165, for every table. -/
def Obligations.EvalRule : Prop :=
  (∀ (stage : Stage) (v : Variant),
    RunsAs (BitVec.ofNat 32 (0x30000000 + stageNumber stage * 2 ^ 26 +
      (if v = .outer then 1 else 0) * 2 ^ 25)) (.eval stage v) ∧
    RunsAs (BitVec.ofNat 32 (0x30000000 + stageNumber stage * 2 ^ 26 +
      (if v = .outer then 1 else 0) * 2 ^ 25 + 2 ^ 24)) (.evalA stage v)) ∧
  (∀ (stage : Stage) (v : Variant) (s : State),
    let b := evalBit (approxEntry s.approx stage v)
      { pl := s.pl, pr := s.pr, cl := s.cl, cr := s.cr } s.k0 s.k1 s.k2 s.cand
    exec (.eval stage v) s = .next { s with ebit := if b then 1 else 0 } ∧
    exec (.evalA stage v) s =
      .next { s with
        ebit := if b then 1 else 0
        filt :=
          if s.filt.seen = false then { s.filt with seen := true, ref := b }
          else if b ≠ s.filt.ref then { s.filt with ok := false } else s.filt }) ∧
  (∀ w, opOf w = 0x3 → (w.extractLsb' 0 20 ≠ 0 ∨ w.extractLsb' 20 4 ≠ 0) → RaisesIll w) ∧
  (∀ (v : Variant) (p : Pair) (k0 k1 k2 k0' k1' k2' cand : Word),
    defaultBit .k0 v p k0 k1 k2 cand = defaultBit .k0 v p k0' k1' k2' cand) ∧
  (∀ s : State, s.approx = defaultApprox → s.pl = 0 → s.pr = 0 → s.cl = 0xF4C3198E →
    s.cr = 0x39073A30 → s.k0 = 0x01234567 → s.k1 = 0x89ABCDEF → s.k2 = 0xFEDCBA98 →
    (s.cand = 0x01234567 → exec (.eval .k0 .inner) s = .next { s with ebit := 0 }) ∧
    (s.cand = 0x89ABCDEF → exec (.eval .k1 .outer) s = .next { s with ebit := 1 }))

/-- 44_candidate.md R192. -/
def Obligations.BuildiRule : Prop :=
  (∀ n : BitVec 12, RunsAs (0x40000000 ||| n.setWidth 32) (.buildi n)) ∧
  (∀ (n : BitVec 12) (s : State),
    exec (.buildi n) s = .next { s with cand := buildInner n, ink := buildInner n }) ∧
  (∀ w : Word, opOf w = 0x4 → w.extractLsb' 12 16 ≠ 0 → RaisesIll w) ∧
  (∀ s : State, hostWrite 0x7C 0x40000000 s = .next { s with cand := 0, ink := 0 }) ∧
  ∀ s : State,
    hostWrite 0x7C 0x400008A2 s = .next { s with cand := 0x00222200, ink := 0x00222200 }

/-- 44_candidate.md R193. -/
def Obligations.BuildoRule : Prop :=
  (∀ n : BitVec 20, RunsAs (0x50000000 ||| n.setWidth 32) (.buildo n)) ∧
  (∀ (n : BitVec 20) (s : State),
    exec (.buildo n) s = .next { s with cand := buildOuter n s.ink }) ∧
  (∀ w : Word, opOf w = 0x5 → w.extractLsb' 20 8 ≠ 0 → RaisesIll w) ∧
  (∀ (n : BitVec 20) (s : State), s.ink = 0 →
    exec (.buildo n) s =
      .next { s with
        cand := cat8 (n.extractLsb' 12 8)
          (n.extractLsb' 12 8 ^^^ ((n.extractLsb' 2 2).setWidth 8 <<< 6))
          (n.extractLsb' 4 8 ^^^ ((n.extractLsb' 0 2).setWidth 8 <<< 6)) (n.extractLsb' 4 8) }) ∧
  ∀ s : State, s.ink = 0x00222200 →
    hostWrite 0x7C 0x50001670 s = .next { s with cand := 0x01234567 }

/-- 44_candidate.md R194. -/
def Obligations.KsetRule : Prop :=
  RunsAs 0x60000000 (.kset .k0) ∧ RunsAs 0x64000000 (.kset .k1) ∧
  RunsAs 0x68000000 (.kset .k2) ∧ RunsAs 0x6C000000 (.kset .k3) ∧
  (∀ s : State,
    exec (.kset .k0) s = .next { s with k0 := s.cand } ∧
    exec (.kset .k1) s = .next { s with k1 := s.cand } ∧
    exec (.kset .k2) s = .next { s with k2 := s.cand } ∧
    exec (.kset .k3) s = .next { s with k3 := s.cand }) ∧
  (∀ w : Word, opOf w = 0x6 → w.extractLsb' 0 26 ≠ 0 → RaisesIll w) ∧
  (∀ (v : Variant) (s : State), s.approx = defaultApprox →
    State.evaluator { s with k0 := s.cand } .k0 v = s.evaluator .k0 v) ∧
  ∀ s : State, s.cand = 0x89ABCDEF → hostWrite 0x7C 0x64000000 s = .next { s with k1 := 0x89ABCDEF }

/-- 45_filter.md R213. -/
def Obligations.FclrRule : Prop :=
  RunsAs 0x90000000 .fclr ∧
  (∀ s : State,
    exec .fclr s =
      .next { s with
        filt := { seen := false, ref := false, ok := true, matched := false, vok := true } }) ∧
  (∀ s t : State, exec .fclr s = .next t → hostRead 0x54 t = (0x00000014, t)) ∧
  (∀ s : State, hostRead 0x54 s = (0x00000014, s) → exec .fclr s = .next s) ∧
  (∀ w, opOf w = 0x9 → w ≠ 0x90000000 → RaisesIll w)

/-- 46_derive.md R231. -/
def Obligations.YgenRule : Prop :=
  RunsAs 0x70000000 .ygen ∧
  (∀ s : State,
    let y := ys s.pl s.pr s.k0 s.k1 s.k2 s.k3
    exec .ygen s = .next { s with y0 := y.y0, y1 := y.y1, y2 := y.y2, y3 := y.y3 }) ∧
  (∀ w, opOf w = 0x7 → w ≠ 0x70000000 → RaisesIll w) ∧
  ys 0 0 0 0 0 0 = ⟨0x10041044, 0xD6A5E7B0, 0x142F1A2F, 0x29469E28⟩ ∧
  ys 0 0 testKey.k0 testKey.k1 testKey.k2 testKey.k3 =
    ⟨0x5815DC11, 0x397DB1C2, 0xA6E2CC9C, 0xDCAFB95D⟩

/-- 46_derive.md R233. -/
def Obligations.KderiveRule : Prop :=
  RunsAs 0x80000000 .kderive ∧
  (∀ s : State,
    let y := ys s.pl s.pr s.k0 s.k1 s.k2 s.k3
    exec .kderive s =
      .next { s with
        y0 := y.y0, y1 := y.y1, y2 := y.y2, y3 := y.y3
        k4 := s.pl ^^^ s.pr ^^^ y.y1 ^^^ y.y3 ^^^ s.cl
        k5 := s.pr ^^^ y.y1 ^^^ y.y3 ^^^ y.y0 ^^^ y.y2 ^^^ s.cr }) ∧
  (∀ w, opOf w = 0x8 → w ≠ 0x80000000 → RaisesIll w) ∧
  (∀ t, exec .kderive (loaded ⟨0, 0, 0xF4C3198E, 0x39073A30⟩ testKey) = .next t →
    t.k4 = 0x11111111 ∧ t.k5 = 0x22222222) ∧
  (∀ t, exec .kderive (loaded ⟨0x01234567, 0x89ABCDEF, 0x915FFA15, 0x667E794D⟩
      { testKey with k3 := 0x76543211 }) = .next t →
    t.k4 = 0x011D7DCC ∧ t.k5 = 0x322E4EFF ∧
    decryptBlock ⟨0xF4C3198E, 0x39073A30⟩ t.subkeys = ⟨0xFE677476, 0xA8F2C5B4⟩)

/-- 10_state.md R30, its column "written by commands", with R31 and R35: every command completes
from every state, and each register changes under no command but those the table names. -/
def Obligations.CommandsWriteOnlyTheirRegisters : Prop :=
  ∀ (i : Instr) (s : State), ∃ t, exec i s = .next t ∧
    t.pl = s.pl ∧ t.pr = s.pr ∧ t.cl = s.cl ∧ t.cr = s.cr ∧ t.x = s.x ∧
    t.status = s.status ∧ t.approx = s.approx ∧ t.port = s.port ∧ t.reads = s.reads ∧
    (i ≠ .kset .k0 → t.k0 = s.k0) ∧ (i ≠ .kset .k1 → t.k1 = s.k1) ∧
    (i ≠ .kset .k2 → t.k2 = s.k2) ∧ (i ≠ .kset .k3 → t.k3 = s.k3) ∧
    (i ≠ .kderive → t.k4 = s.k4 ∧ t.k5 = s.k5) ∧
    ((∀ n, i ≠ .buildi n) → t.ink = s.ink ∧ ((∀ n, i ≠ .buildo n) → t.cand = s.cand)) ∧
    (i ≠ .xform → t.t = s.t) ∧
    (i ≠ .decrypt → i ≠ .decryptA →
      t.dl = s.dl ∧ t.dr = s.dr ∧
      (i ≠ .fclr → t.filt.matched = s.filt.matched ∧ t.filt.vok = s.filt.vok)) ∧
    (i ≠ .ygen → i ≠ .kderive →
      t.y0 = s.y0 ∧ t.y1 = s.y1 ∧ t.y2 = s.y2 ∧ t.y3 = s.y3) ∧
    ((∀ stage v, i ≠ .evalA stage v) →
      (i ≠ .fclr → t.filt.seen = s.filt.seen ∧ t.filt.ref = s.filt.ref ∧ t.filt.ok = s.filt.ok) ∧
      ((∀ stage v, i ≠ .eval stage v) → t.ebit = s.ebit))

/-! ## The evaluators -/

/-- 43_evaluate.md R160 to R162, for every table entry. -/
def Obligations.EvaluatorDatapath : Prop :=
  (∀ (e : ApproxEntry) (p : Pair) (k0 k1 k2 cand : Word),
    let y0 := F (p.pl ^^^ p.pr ^^^ k0)
    let y1 := F (p.pl ^^^ y0 ^^^ k1)
    let y2 := F (p.pl ^^^ p.pr ^^^ y1 ^^^ k2)
    let tIn := (if e.tin.getLsbD 0 then p.pl else 0) ^^^ (if e.tin.getLsbD 1 then p.pr else 0) ^^^
      (if e.tin.getLsbD 2 then y0 else 0) ^^^ (if e.tin.getLsbD 3 then y1 else 0) ^^^
      (if e.tin.getLsbD 4 then y2 else 0)
    let t := F (tIn ^^^ cand)
    evalBit e p k0 k1 k2 cand =
      (par (e.mPL &&& p.pl) ^^ par (e.mPR &&& p.pr) ^^ par (e.mCL &&& p.cl) ^^
        par (e.mCR &&& p.cr) ^^ par (e.mY0 &&& y0) ^^ par (e.mY1 &&& y1) ^^ par (e.mY2 &&& y2) ^^
        par (e.mT &&& t))) ∧
  ∀ (s : State) (a b c d : Word) (stage : Stage) (v : Variant),
    State.evaluator { s with y0 := a, y1 := b, y2 := c, y3 := d } stage v = s.evaluator stage v

/-- 43_evaluate.md R163: the shorthands, each mask of the default table as the XOR of the shorthands
of the terms that read the operand, what each default evaluator computes in the document's bit
positions, and that its transform output is Y_s when the candidate is K_s. -/
def Obligations.DefaultEvaluatorTable : Prop :=
  (let A := posMask [5, 13, 21]
   let B := posMask [15]
   let C := posMask [13]
   let D := posMask [7, 15, 23, 31]
   A = 0x04040400 ∧ B = 0x00010000 ∧ C = 0x00040000 ∧ D = 0x01010101 ∧
   defaultApprox =
    { inner0 := ⟨A ^^^ B, A, A ^^^ B, B, 0, 0, 0, B, 0b00011⟩
      outer0 := ⟨C ^^^ D, C, C ^^^ D, D, 0, 0, 0, D, 0b00011⟩
      inner1 := ⟨A ^^^ B, B, A, A, A, 0, 0, B, 0b00101⟩
      outer1 := ⟨C ^^^ D, D, C, C, C, 0, 0, D, 0b00101⟩
      inner2 := ⟨B, 0, B, B, B, 0, 0, B, 0b01011⟩
      outer2 := ⟨D, 0, D, D, D, 0, 0, D, 0b01011⟩
      inner3 := ⟨B, B, B, 0, 0, B, 0, B, 0b10101⟩
      outer3 := ⟨D, D, D, 0, 0, D, 0, D, 0b10101⟩ }) ∧
  (∀ (stage : Stage) (v : Variant) (p : Pair) (k : Subkeys),
    let y := ys p.pl p.pr k.k0 k.k1 k.k2 k.k3
    F (transformInput (approxEntry defaultApprox stage v) p (evalOutputs p k.k0 k.k1 k.k2) ^^^
        stageKey k stage) =
      match stage with
      | .k0 => y.y0
      | .k1 => y.y1
      | .k2 => y.y2
      | .k3 => y.y3) ∧
  ∀ (p : Pair) (k0 k1 k2 cand : Word),
    let y0 := F (p.pl ^^^ p.pr ^^^ k0)
    let y1 := F (p.pl ^^^ y0 ^^^ k1)
    let y2 := F (p.pl ^^^ p.pr ^^^ y1 ^^^ k2)
    let t0 := F (p.pl ^^^ p.pr ^^^ cand)
    let t1 := F (p.pl ^^^ y0 ^^^ cand)
    let t2 := F (p.pl ^^^ p.pr ^^^ y1 ^^^ cand)
    let t3 := F (p.pl ^^^ y0 ^^^ y2 ^^^ cand)
    defaultBit .k0 .inner p k0 k1 k2 cand =
      (bitsAt [5, 13, 21] (p.pl ^^^ p.pr ^^^ p.cl) ^^ bitsAt [15] (p.pl ^^^ p.cl ^^^ p.cr) ^^
        bitsAt [15] t0) ∧
    defaultBit .k0 .outer p k0 k1 k2 cand =
      (bitsAt [13] (p.pl ^^^ p.pr ^^^ p.cl) ^^
        bitsAt [7, 15, 23, 31] (p.pl ^^^ p.cl ^^^ p.cr) ^^ bitsAt [7, 15, 23, 31] t0) ∧
    defaultBit .k1 .inner p k0 k1 k2 cand =
      (bitsAt [5, 13, 21] (p.pl ^^^ p.cl ^^^ p.cr ^^^ y0) ^^ bitsAt [15] (p.pl ^^^ p.pr) ^^
        bitsAt [15] t1) ∧
    defaultBit .k1 .outer p k0 k1 k2 cand =
      (bitsAt [13] (p.pl ^^^ p.cl ^^^ p.cr ^^^ y0) ^^ bitsAt [7, 15, 23, 31] (p.pl ^^^ p.pr) ^^
        bitsAt [7, 15, 23, 31] t1) ∧
    defaultBit .k2 .inner p k0 k1 k2 cand =
      (bitsAt [15] (p.pl ^^^ p.cl ^^^ p.cr ^^^ y0) ^^ bitsAt [15] t2) ∧
    defaultBit .k2 .outer p k0 k1 k2 cand =
      (bitsAt [7, 15, 23, 31] (p.pl ^^^ p.cl ^^^ p.cr ^^^ y0) ^^ bitsAt [7, 15, 23, 31] t2) ∧
    defaultBit .k3 .inner p k0 k1 k2 cand =
      (bitsAt [15] (p.pl ^^^ p.pr ^^^ p.cl ^^^ y1) ^^ bitsAt [15] t3) ∧
    defaultBit .k3 .outer p k0 k1 k2 cand =
      (bitsAt [7, 15, 23, 31] (p.pl ^^^ p.pr ^^^ p.cl ^^^ y1) ^^ bitsAt [7, 15, 23, 31] t3)

/-- 43_evaluate.md R164: what conformance means, entry by entry, and that the default conforms. -/
def Obligations.ConformanceOfTables : Prop :=
  tableConforms defaultApprox = true ∧
  ∀ table : ApproxTable, tableConforms table = true ↔
    ∀ (stage : Stage) (v : Variant),
      let e := approxEntry table stage v
      (stageNumber stage ≤ 0 → e.mY0 = 0 ∧ e.tin.getLsbD 2 = false) ∧
      (stageNumber stage ≤ 1 → e.mY1 = 0 ∧ e.tin.getLsbD 3 = false) ∧
      (stageNumber stage ≤ 2 → e.mY2 = 0 ∧ e.tin.getLsbD 4 = false) ∧ e.mT ≠ 0

/-- Derived from 43_evaluate.md R160 and R164: with a conforming table the evaluator of stage s
depends on no subkey K_j with j ≥ s, so only previously fixed subkeys enter. -/
def Obligations.ConformingStageIgnoresUnfixedKeys : Prop :=
  ∀ (table : ApproxTable), tableConforms table = true →
    ∀ (stage : Stage) (v : Variant) (p : Pair) (k : Subkeys) (a0 a1 a2 b0 b1 b2 cand : Word),
      FixedBefore stage k a0 a1 a2 → FixedBefore stage k b0 b1 b2 →
      evalBit (approxEntry table stage v) p a0 a1 a2 cand =
        evalBit (approxEntry table stage v) p b0 b1 b2 cand

/-- 43_evaluate.md R166: under the true subkeys every default evaluator is constant across pairs,
and its constants under the test key. -/
def Obligations.TrueKeyEvaluatorsAreConstant : Prop :=
  (∀ (k : Subkeys) (stage : Stage) (v : Variant), ∃ bit : Bool,
    ∀ (plain : Block) (k0 k1 k2 : Word), FixedBefore stage k k0 k1 k2 →
      defaultBit stage v (pairUnder k plain) k0 k1 k2 (stageKey k stage) = bit) ∧
  ∀ (plain : Block),
    let bits := fun stage v =>
      defaultBit stage v (pairUnder testKey plain) testKey.k0 testKey.k1 testKey.k2
        (stageKey testKey stage)
    bits .k0 .inner = false ∧ bits .k0 .outer = false ∧ bits .k1 .inner = true ∧
    bits .k1 .outer = true ∧ bits .k2 .inner = true ∧ bits .k2 .outer = false ∧
    bits .k3 .inner = true ∧ bits .k3 .outer = false

/-- 43_evaluate.md R167: an inner evaluator of the default table sees a candidate only through
twelve bits, so the inner representative of a subkey passes whenever the subkey does. -/
def Obligations.InnerEvaluatorSeesTwelveBits : Prop :=
  (∀ (stage : Stage) (c c' : Word) (i : BitVec 12), InClass i c → InClass i c' →
    ∃ bit : Bool, ∀ (p : Pair) (k0 k1 k2 : Word),
      defaultBit stage .inner p k0 k1 k2 c' = (defaultBit stage .inner p k0 k1 k2 c ^^ bit)) ∧
  (∀ (stage : Stage) (key : Word),
    let i := BitVec.ofNat 12 (64 * ((byte0 key ^^^ byte1 key).toNat % 64) +
      (byte2 key ^^^ byte3 key).toNat % 64)
    ∀ (p p' : Pair) (k0 k1 k2 : Word),
      defaultBit stage .inner p k0 k1 k2 key = defaultBit stage .inner p' k0 k1 k2 key →
      defaultBit stage .inner p k0 k1 k2 (buildInner i) =
        defaultBit stage .inner p' k0 k1 k2 (buildInner i)) ∧
  buildInner 2210 = 0x00222200 ∧ ∀ stage, InClass 2210 (stageKey testKey stage)

/-- 43_evaluate.md R168: an outer evaluator of the default table cannot tell a candidate from its
partners, and index bits 19 and 11 of an outer candidate never change the bit. -/
def Obligations.OuterEvaluatorCannotTellPartners : Prop :=
  ∀ (stage : Stage) (p : Pair) (k0 k1 k2 : Word),
    (∀ c : Word,
      defaultBit stage .outer p k0 k1 k2 (c ^^^ 0x80800000) = defaultBit stage .outer p k0 k1 k2 c ∧
      defaultBit stage .outer p k0 k1 k2 (c ^^^ 0x00008080) = defaultBit stage .outer p k0 k1 k2 c ∧
      defaultBit stage .outer p k0 k1 k2 (c ^^^ 0x80808080) = defaultBit stage .outer p k0 k1 k2 c) ∧
    ∀ (n : BitVec 20) (ik : Word),
      buildOuter (n ^^^ BitVec.twoPow 20 19) ik = buildOuter n ik ^^^ 0x80800000 ∧
      buildOuter (n ^^^ BitVec.twoPow 20 11) ik = buildOuter n ik ^^^ 0x00008080

/-! ## Candidates -/

/-- 44_candidate.md R190. -/
def Obligations.InnerCandidateMap : Prop :=
  (∀ i : BitVec 12,
    buildInner i = BitVec.ofNat 32 (i.toNat / 64 % 64 * 2 ^ 16 + i.toNat % 64 * 2 ^ 8) ∧
    byte0 (buildInner i) = 0 ∧ byte3 (buildInner i) = 0 ∧
    (byte1 (buildInner i)).toNat = i.toNat / 64 ∧ (byte2 (buildInner i)).toNat = i.toNat % 64) ∧
  (∀ i j : BitVec 12, buildInner i = buildInner j → i = j) ∧
  buildInner 0 = 0 ∧ buildInner 4095 = 0x003F3F00 ∧ buildInner 2210 = 0x00222200 ∧
  buildInner 0x041 = 0x00010100

/-- 44_candidate.md R191. -/
def Obligations.OuterCandidateMap : Prop :=
  (∀ (n : BitVec 20) (ik : Word),
    let a0 := BitVec.ofNat 8 ((n.toNat / 4 % 4 * 64 + (byte1 ik).toNat) % 256)
    let a1 := BitVec.ofNat 8 ((n.toNat % 4 * 64 + (byte2 ik).toNat) % 256)
    let b0 := BitVec.ofNat 8 (n.toNat / 2 ^ 12)
    let b3 := BitVec.ofNat 8 (n.toNat / 2 ^ 4 % 256)
    buildOuter n ik = cat8 b0 (b0 ^^^ a0) (b3 ^^^ a1) b3) ∧
  (∀ (n : BitVec 20) (i : BitVec 12),
    outerA0 n (buildInner i) =
      ((n.extractLsb' 2 2).setWidth 8 <<< 6) ||| byte1 (buildInner i) ∧
    outerA1 n (buildInner i) =
      ((n.extractLsb' 0 2).setWidth 8 <<< 6) ||| byte2 (buildInner i)) ∧
  buildOuter 0 0 = 0 ∧ buildOuter 0xFFFFF 0x003F3F00 = 0xFF0000FF ∧
  buildOuter 0x12345 0x00222200 = 0x12705634 ∧ buildOuter 0x01670 0x00222200 = 0x01234567 ∧
  buildOuter 0xF 0x00FFFF00 = 0x00BFBF00

/-- 44_candidate.md R195. -/
def Obligations.OuterCandidateIdentity : Prop :=
  ∀ (n : BitVec 20) (ik : Word),
    byte1 (buildOuter n ik) ^^^ byte0 (buildOuter n ik) =
      BitVec.ofNat 8 ((n.toNat / 4 % 4 * 64 + (byte1 ik).toNat) % 256) ∧
    byte2 (buildOuter n ik) ^^^ byte3 (buildOuter n ik) =
      BitVec.ofNat 8 ((n.toNat % 4 * 64 + (byte2 ik).toNat) % 256)

/-- 44_candidate.md R196: the outer candidates of a canonical inner key are exactly its inner
class, each once, and the classes partition all words. -/
def Obligations.OuterCandidatesCoverTheClass : Prop :=
  (∀ i : BitVec 12,
    (∀ n : BitVec 20, InClass i (buildOuter n (buildInner i))) ∧
    (∀ n m : BitVec 20, buildOuter n (buildInner i) = buildOuter m (buildInner i) → n = m) ∧
    ∀ c : Word, InClass i c → ∃ n : BitVec 20, buildOuter n (buildInner i) = c) ∧
  ∀ c : Word, ∃ i : BitVec 12, InClass i c ∧ ∀ j : BitVec 12, InClass j c → j = i

/-! ## Derivation -/

/-- 46_derive.md R232: the derived whitening keys reproduce the loaded pair whatever K0..K3 are, and
are the true ones when K0..K3 are true. -/
def Obligations.DerivedKeysReproduceThePair : Prop :=
  (∀ (pl pr cl cr k0 k1 k2 k3 : Word),
    let y := ys pl pr k0 k1 k2 k3
    k4Of pl pr cl y = pl ^^^ pr ^^^ y.y1 ^^^ y.y3 ^^^ cl ∧
    k5Of pr cr y = pr ^^^ y.y1 ^^^ y.y3 ^^^ y.y0 ^^^ y.y2 ^^^ cr) ∧
  (∀ s : State, ∃ t u, exec .kderive s = .next t ∧ exec .decrypt t = .next u ∧
    u.dl = s.pl ∧ u.dr = s.pr ∧ u.filt.matched = true) ∧
  ∀ (k : Subkeys) (plain : Block) (s : State), s.pair = pairUnder k plain →
    s.k0 = k.k0 → s.k1 = k.k1 → s.k2 = k.k2 → s.k3 = k.k3 →
    ∃ t, exec .kderive s = .next t ∧ t.k4 = k.k4 ∧ t.k5 = k.k5

/-! ## The filter and the verdicts -/

/-- 45_filter.md R211: the three cases of FiltAcc, through EVAL.A. -/
def Obligations.FilterAccumulation : Prop :=
  ∀ (stage : Stage) (v : Variant) (s : State), ∃ t, exec (.evalA stage v) s = .next t ∧
    (s.filt.seen = false →
      t.filt = { s.filt with seen := true, ref := s.evaluator stage v }) ∧
    (s.filt.seen = true → s.evaluator stage v ≠ s.filt.ref →
      t.filt = { s.filt with ok := false }) ∧
    (s.filt.seen = true → s.evaluator stage v = s.filt.ref → t.filt = s.filt) ∧
    t.filt.matched = s.filt.matched ∧ t.filt.vok = s.filt.vok

/-- 45_filter.md R214: after FCLR and one EVAL.A for each pair, FILT holds the verdict; and the same
of the accumulated bits whatever other moves come between, if none is a write of FILT, an FCLR or a
reset. -/
def Obligations.FilterVerdict : Prop :=
  (∀ (stage : Stage) (v : Variant) (s : State) (pairs : List Pair),
    let E := fun p => evalBit (approxEntry s.approx stage v) p s.k0 s.k1 s.k2 s.cand
    ∃ t, runMoves (expandProgram (filterProgram stage v pairs)) s = .next t ∧
      (pairs = [] → t.filt.seen = false ∧ t.filt.ok = true) ∧
      ∀ p rest, pairs = p :: rest →
        t.filt.seen = true ∧ t.filt.ref = E p ∧ (t.filt.ok = true ↔ ∀ q ∈ pairs, E q = E p)) ∧
  ∀ (s : State) (moves : List HostMove), (∀ m ∈ moves, ¬ MayRearm m) →
    let bits := accumulated (.write 0x7C 0x90000000 :: moves) s
    ∃ t, runMoves (.write 0x7C 0x90000000 :: moves) s = .next t ∧
      (bits = [] → t.filt.seen = false ∧ t.filt.ok = true) ∧
      ∀ b rest, bits = b :: rest →
        t.filt.seen = true ∧ t.filt.ref = b ∧ (t.filt.ok = true ↔ ∀ c ∈ bits, c = b)

/-- 45_filter.md R215: once OK or VOK is 0 no command but FCLR sets it back to 1, and it stays 0 at
every step while the host sends no FCLR, no write of FILT and no reset. -/
def Obligations.VerdictsNeverRelax : Prop :=
  (∀ (i : Instr) (s t : State), i ≠ .fclr → exec i s = .next t →
    (s.filt.ok = false → t.filt.ok = false) ∧ (s.filt.vok = false → t.filt.vok = false)) ∧
  (∀ s t : State, (s.filt.ok = false ∧ ∀ m ∈ s.port, ¬ MayRearm m) → step s = .next t →
    t.filt.ok = false ∧ ∀ m ∈ t.port, ¬ MayRearm m) ∧
  ∀ s t : State, (s.filt.vok = false ∧ ∀ m ∈ s.port, ¬ MayRearm m) → step s = .next t →
    t.filt.vok = false ∧ ∀ m ∈ t.port, ¬ MayRearm m

/-- 45_filter.md R216: after FCLR and one DECRYPT.A for each pair, VOK is the verdict over all pairs
and MATCH that of the last; and VOK is the same verdict of the compares made whatever other moves
come between, if none is a write of FILT, an FCLR or a reset. -/
def Obligations.ValidationVerdict : Prop :=
  (∀ (s : State) (pairs : List Pair),
    ∃ t, runMoves (expandProgram (validationProgram pairs)) s = .next t ∧
      (t.filt.vok = true ↔
        ∀ p ∈ pairs, decryptBlock ⟨p.cl, p.cr⟩ s.subkeys = ⟨p.pl, p.pr⟩) ∧
      ∀ earlier p, pairs = earlier ++ [p] →
        (t.filt.matched = true ↔ decryptBlock ⟨p.cl, p.cr⟩ s.subkeys = ⟨p.pl, p.pr⟩)) ∧
  ∀ (s : State) (moves : List HostMove), (∀ m ∈ moves, ¬ MayRearm m) →
    ∃ t, runMoves (.write 0x7C 0x90000000 :: moves) s = .next t ∧
      (t.filt.vok = true ↔ ∀ c ∈ validated (.write 0x7C 0x90000000 :: moves) s, c = true)

/-- Derived from 45_filter.md R214, the invariant of its proof: FCLR and reset record no bits, and
from every state every step whose move is no write of FILT, no FCLR and no reset keeps the record,
with the bit of an EVAL.A added at its end. -/
def Obligations.FilterRecordKeptByEveryStep : Prop :=
  FilterRecords State.reset.filt [] ∧
  (∀ s t : State, exec .fclr s = .next t → FilterRecords t.filt []) ∧
  ∀ (s t : State) (bits : List Bool), FilterRecords s.filt bits →
    (∀ m ∈ s.port.head?, ¬ MayRearm m) → step s = .next t →
    FilterRecords t.filt (bits ++ (s.port.take 1).flatMap fun m => accumulatedBy m s)

/-- Derived from 45_filter.md R216: the same invariant of VOK and the compares of DECRYPT.A. -/
def Obligations.ValidationRecordKeptByEveryStep : Prop :=
  ValidationRecords State.reset.filt [] ∧
  (∀ s t : State, exec .fclr s = .next t → ValidationRecords t.filt []) ∧
  ∀ (s t : State) (compares : List Bool), ValidationRecords s.filt compares →
    (∀ m ∈ s.port.head?, ¬ MayRearm m) → step s = .next t →
    ValidationRecords t.filt (compares ++ (s.port.take 1).flatMap fun m => validatedBy m s)

/-! ## Encoding -/

/-- Derived from 30_encoding.md R98, R102 and R104: decoding an encoded command gives it back, with
every operand at every value its field admits. -/
def Obligations.DecodeOfEncode : Prop := ∀ i : Instr, decode (encode i) = .ok i

/-- 30_encoding.md R104: the encoding function, and that it inverts decoding on legal words. -/
def Obligations.EncodeOfDecode : Prop :=
  (∀ (op : BitVec 4) (stg : BitVec 2) (var acc : BitVec 1) (imm : BitVec 20),
    (assembleWord op stg var acc imm).toNat =
      op.toNat * 2 ^ 28 + stg.toNat * 2 ^ 26 + var.toNat * 2 ^ 25 + acc.toNat * 2 ^ 24 +
        imm.toNat) ∧
  ∀ (w : Word) (i : Instr), decode w = .ok i → encode i = w

/-- 30_encoding.md R92, R99: exactly which words are illegal, by fields and by the match and mask
list, and that no word matches two rows. -/
def Obligations.IllegalWordsExactly : Prop :=
  (∀ w : Word, (∃ e, decode w = .error e) ↔
    (10 ≤ (opOf w).toNat ∨ w.extractLsb' 20 4 ≠ 0 ∨
      (opOf w ∈ [0x0#4, 0x1#4, 0x7#4, 0x8#4, 0x9#4] ∧
        (w.extractLsb' 26 2 ≠ 0 ∨ w.extractLsb' 25 1 ≠ 0 ∨ w.extractLsb' 24 1 ≠ 0 ∨
          w.extractLsb' 0 20 ≠ 0)) ∨
      (opOf w = 0x2 ∧
        (w.extractLsb' 26 2 ≠ 0 ∨ w.extractLsb' 25 1 ≠ 0 ∨ w.extractLsb' 0 20 ≠ 0)) ∨
      (opOf w = 0x3 ∧ w.extractLsb' 0 20 ≠ 0) ∨
      (opOf w = 0x4 ∧
        (w.extractLsb' 26 2 ≠ 0 ∨ w.extractLsb' 25 1 ≠ 0 ∨ w.extractLsb' 24 1 ≠ 0 ∨
          w.extractLsb' 12 8 ≠ 0)) ∨
      (opOf w = 0x5 ∧
        (w.extractLsb' 26 2 ≠ 0 ∨ w.extractLsb' 25 1 ≠ 0 ∨ w.extractLsb' 24 1 ≠ 0)) ∨
      (opOf w = 0x6 ∧
        (w.extractLsb' 25 1 ≠ 0 ∨ w.extractLsb' 24 1 ≠ 0 ∨ w.extractLsb' 0 20 ≠ 0)))) ∧
  (∀ w : Word, (∃ e, decode w = .error e) ↔ wellFormedWord w = false) ∧
  (∀ w : Word, (∃ e, decode w = .error e) → RaisesIll w) ∧
  opcodeRows.Pairwise fun a b => ∀ w : Word, ¬ (a.accepts w = true ∧ b.accepts w = true)

/-- A few words written out from the encoding tables of 30_encoding.md R92 and R102. -/
def Obligations.SampleWordsDecode : Prop :=
  decode 0x00000000 = .ok .nop ∧ decode 0x10000000 = .ok .xform ∧
  decode 0x21000000 = .ok .decryptA ∧ decode 0x36000000 = .ok (.eval .k1 .outer) ∧
  decode 0x3F000000 = .ok (.evalA .k3 .outer) ∧ decode 0x400008A2 = .ok (.buildi 2210) ∧
  decode 0x50001670 = .ok (.buildo 0x01670) ∧ decode 0x6C000000 = .ok (.kset .k3) ∧
  decode 0x80000000 = .ok .kderive ∧ decode 0x90000000 = .ok .fclr

/-! ## The host window -/

/-- 20_memory.md R66: one step on a write to CMD runs the decoded command, or raises ILL. -/
def Obligations.StepRunsTheDecodedCommand : Prop :=
  (∀ (s : State) (w : Word) (i : Instr) (rest : List HostMove),
    s.port = .write 0x7C w :: rest → decode w = .ok i →
    step s = exec i { s with port := rest }) ∧
  (∀ (s : State) (w : Word) (e : Illegal) (rest : List HostMove),
    s.port = .write 0x7C w :: rest → decode w = .error e →
    step s = .next { s with port := rest, status := { s.status with ill := true } })

/-- The model's own placing of a command word (log entry 9): the very next step runs it. -/
def Obligations.PlacedWordRunsNext : Prop :=
  ∀ (s : State) (w : Nat) (i : Instr), decodeTableWord 32 w = some i →
    step (s.withFetchWord 32 w) = exec i s

/-- 20_memory.md R64: what every aligned read returns and does. The value returned joins `reads`, the
observation of 70_reset_and_hazards.md R297. -/
def Obligations.HostReadTable : Prop :=
  ∀ (s : State) (a : BitVec 7) (rest : List HostMove), s.port = .read a :: rest →
    (∀ v, (a, v) ∈ readTable s →
      step s = .next { s with port := rest, reads := s.reads ++ [v] }) ∧
    (a.toNat % 4 = 0 → (reservedOffset a ∨ a = 0x7C) →
      step s = .next { s with
        port := rest, reads := s.reads ++ [0], status := { s.status with herr := true } })

/-- 20_memory.md R65: what every aligned write does. -/
def Obligations.HostWriteTable : Prop :=
  ∀ (s : State) (a : BitVec 7) (v : Word) (rest : List HostMove), s.port = .write a v :: rest →
    (∀ t, (a, t) ∈ writeTable { s with port := rest } v → step s = .next t) ∧
    (a = 0x7C → step s = runCommand v { s with port := rest }) ∧
    (a.toNat % 4 = 0 → (reservedOffset a ∨ a = 0x5C) →
      step s = .next { s with port := rest, status := { s.status with herr := true } })

/-- 60_exceptions.md R262: exactly the erring moves set HERR; an erring read returns 0 and an erring
move changes nothing else. -/
def Obligations.HerrExactly : Prop :=
  ∀ (s : State) (m : HostMove) (rest : List HostMove), s.port = m :: rest →
    (ErringMove m →
      step s = .next { s with
        port := rest, reads := s.reads ++ erringValue m,
        status := { s.status with herr := true } }) ∧
    (¬ ErringMove m → s.status.herr = false → ∀ t, step s = .next t → t.status.herr = false)

/-- 60_exceptions.md R265: one access raises at most one error; misalignment is checked first, then
an illegal word at CMD, then the other cases. -/
def Obligations.OneErrorAtMostInOrder : Prop :=
  (∀ (s t : State), s.status = { ill := false, herr := false } → step s = .next t →
    ¬ (t.status.ill = true ∧ t.status.herr = true)) ∧
  (∀ (s : State) (a : BitVec 7) (w : Word) (rest : List HostMove),
    s.port = .write a w :: rest → a.toNat % 4 ≠ 0 →
    step s = .next { s with port := rest, status := { s.status with herr := true } }) ∧
  (∀ (s : State) (m : HostMove) (rest : List HostMove), s.port = m :: rest → ErringMove m →
    ∃ t, step s = .next t ∧ t.status = { s.status with herr := true }) ∧
  (∀ (s : State) (w : Word) (e : Illegal) (rest : List HostMove),
    s.port = .write 0x7C w :: rest → decode w = .error e →
    step s = .next { s with port := rest, status := { s.status with ill := true } }) ∧
  ∀ (i : Instr) (s t : State), exec i s = .next t → t.status = s.status

/-- Derived from 60_exceptions.md R264: a set flag is kept by every step until the host clears it by
its bit in a write of STATUS, or a reset. -/
def Obligations.ErrorFlagsAreSticky : Prop :=
  (∀ s t : State,
    (s.status.ill = true ∧
      ∀ m ∈ s.port, m ≠ .reset ∧ ∀ v : Word, v.getLsbD 0 = true → m ≠ .write 0x58 v) →
    step s = .next t →
    t.status.ill = true ∧
      ∀ m ∈ t.port, m ≠ .reset ∧ ∀ v : Word, v.getLsbD 0 = true → m ≠ .write 0x58 v) ∧
  ∀ s t : State,
    (s.status.herr = true ∧
      ∀ m ∈ s.port, m ≠ .reset ∧ ∀ v : Word, v.getLsbD 1 = true → m ≠ .write 0x58 v) →
    step s = .next t →
    t.status.herr = true ∧
      ∀ m ∈ t.port, m ≠ .reset ∧ ∀ v : Word, v.getLsbD 1 = true → m ≠ .write 0x58 v

/-- Derived from 60_exceptions.md R264: a set flag does not stop or steer the block. Two states that
differ in STATUS alone go to states that differ in STATUS alone, but for a read of STATUS itself. -/
def Obligations.ErrorFlagsDoNotSteer : Prop :=
  ∀ (s t : State) (st : Status), s.port.head? ≠ some (.read 0x58) → step s = .next t →
    ∃ st', step { s with status := st } = .next { t with status := st' }

/-- 10_state.md R51: a host write of FILT stores bits 4:0, a read returns them with 0 above, and a
value read can be written back to restore the fields. -/
def Obligations.FiltSaveAndRestore : Prop :=
  (∀ (s : State) (v : Word), ∃ t, hostWrite 0x54 v s = .next t ∧
    t = { s with filt := t.filt } ∧ t.filt.seen = v.getLsbD 0 ∧ t.filt.ref = v.getLsbD 1 ∧
    t.filt.ok = v.getLsbD 2 ∧ t.filt.matched = v.getLsbD 3 ∧ t.filt.vok = v.getLsbD 4 ∧
    hostRead 0x54 t = (v &&& 0x0000001F, t)) ∧
  ∀ s s' : State, hostWrite 0x54 (hostRead 0x54 s).1 s' = .next { s' with filt := s.filt }

/-- Derived from 20_memory.md R75 and 70_reset_and_hazards.md R294. Accesses run one after another,
each to its end. A read of a register returns what the latest move that may write it left, whatever
moves that do not write it come between: after any move at all, after a host write the value it
stores, after a command what the command left, after a reset the reset value. A write of one data
register leaves the read of every other offset alone, and a command sees the registers written
before it. -/
def Obligations.AccessesSeeEarlierWrites : Prop :=
  (∀ (earlier later : List HostMove) (s : State), ∃ t, runMoves earlier s = .next t ∧
    runMoves (earlier ++ later) s = runMoves later t) ∧
  (∀ (r : WindowReg) (moves : List HostMove), (∀ m ∈ moves, ¬ MayWrite m r) → ∀ s : State,
    (∃ t, runMoves moves s = .next t ∧
      (hostRead (regOffset r) t).1 = (hostRead (regOffset r) s).1) ∧
    (∀ m : HostMove, ∃ u t, accept m s = .next u ∧
      runMoves (m :: moves ++ [.read (regOffset r)]) s = .next t ∧
      t.reads.getLast? = some (hostRead (regOffset r) u).1) ∧
    (∀ v : Word, ∃ t,
      runMoves (.write (regOffset r) v :: moves ++ [.read (regOffset r)]) s = .next t ∧
      t.reads.getLast? = some (leftByWrite s v r)) ∧
    (∀ i : Instr, ∃ u t, exec i s = .next u ∧
      runMoves (.write 0x7C (encode i) :: moves ++ [.read (regOffset r)]) s = .next t ∧
      t.reads.getLast? = some (hostRead (regOffset r) u).1) ∧
    (∃ t, runMoves (.reset :: moves ++ [.read (regOffset r)]) s = .next t ∧
      t.reads.getLast? = some (hostRead (regOffset r) State.reset).1) ∧
    ∀ (v : Word) (i : Instr), ∃ t,
      runMoves (.write (regOffset r) v :: moves) s = .next t ∧
      (r ≠ .cmd → t.readReg r = leftByWrite s v r) ∧
      runMoves (.write (regOffset r) v :: moves ++ [.write 0x7C (encode i)]) s = exec i t) ∧
  (∀ (r : DataReg) (v : Word) (s : State), ∃ t,
    runMoves [.write (regOffset (.data r)) v, .read (regOffset (.data r))] s = .next t ∧
    t.reads = s.reads ++ [v]) ∧
  (∀ (r : DataReg) (v : Word) (s : State) (a : BitVec 7), a ≠ regOffset (.data r) →
    ∃ t, hostWrite (regOffset (.data r)) v s = .next t ∧
      (hostRead a t).1 = (hostRead a s).1 ∧ t.approx = s.approx ∧ t.reads = s.reads) ∧
  ∀ (v : Word) (s : State), ∃ t,
    runMoves [.write 0x30 v, .write 0x7C 0x10000000, .read 0x34] s = .next t ∧
    t.reads = s.reads ++ [F v]

/-- Derived from 30_encoding.md R103: what each host instruction does when its accesses are run. -/
def Obligations.HostInstructionsRun : Prop :=
  (∀ (i : Instr) (s : State),
    runMoves (expand (.command i)) s = exec i { s with port := [] }) ∧
  (∀ (w : Word) (s : State),
    runMoves (expand (.cmd w)) s = runCommand w { s with port := [] }) ∧
  (∀ (p : Pair) (s : State),
    runMoves (expand (.ldpair p)) s =
      .next { s with port := [], pl := p.pl, pr := p.pr, cl := p.cl, cr := p.cr }) ∧
  (∀ (k : Subkeys) (s : State),
    runMoves (expand (.ldkeys k)) s =
      .next { s with
        port := [], k0 := k.k0, k1 := k.k1, k2 := k.k2, k3 := k.k3, k4 := k.k4, k5 := k.k5 }) ∧
  (∀ s : State,
    runMoves (expand .clrerr) s =
      .next { s with port := [], status := { ill := false, herr := false } }) ∧
  (∀ (r : WindowReg) (v : Word),
    expand (.wr r v) = [.write (BitVec.ofNat 7 (4 * (regIndex r).toNat)) v] ∧
    expand (.rd r) = [.read (BitVec.ofNat 7 (4 * (regIndex r).toNat))])

/-! ## Reset, runs and invariants -/

/-- 10_state.md R56: the reset value of every register, read through the window. -/
def Obligations.ResetValues : Prop :=
  (∀ r : DataReg, hostRead (regOffset (.data r)) State.reset = (0x00000000, State.reset)) ∧
  hostRead 0x50 State.reset = (0x00000000, State.reset) ∧
  hostRead 0x54 State.reset = (0x00000014, State.reset) ∧
  hostRead 0x58 State.reset = (0x00000000, State.reset) ∧
  hostRead 0x5C State.reset = (0x46344C41, State.reset) ∧
  State.reset.filt = { seen := false, ref := false, ok := true, matched := false, vok := true }

/-- 70_reset_and_hazards.md R290, R296: the reset event from any state. -/
def Obligations.ResetEvent : Prop :=
  (∀ (s : State) (rest : List HostMove), s.port = .reset :: rest → ∃ t, step s = .next t ∧
    (∀ r : DataReg, t.get r = 0) ∧ t.ebit = 0 ∧ t.filt.toWord = 0x00000014 ∧
    t.status = { ill := false, herr := false } ∧ t.approx = s.approx) ∧
  (∀ (s : State) (r : DataReg),
    hostWrite (regOffset (.data r)) 0 s = .next (s.set r (State.reset.get r))) ∧
  (∀ s : State, hostWrite 0x50 0 s = .next { s with ebit := State.reset.ebit }) ∧
  (∀ s : State, exec .fclr s = .next { s with filt := State.reset.filt }) ∧
  ∀ s : State, hostWrite 0x58 0x00000003 s = .next { s with status := State.reset.status }

/-- Derived from 10_state.md R38 and 20_memory.md R64 to R65 (log entry 6): bits 31:1 of EBIT stay 0. -/
def Obligations.EbitReservedBitsStayZero : Prop :=
  ∀ s t : State, s.ebit.toNat < 2 → step s = .next t → t.ebit.toNat < 2

/-- Derived from 10_state.md R38 and R56: bits 31:1 of EBIT are 0 after reset. -/
def Obligations.EbitReservedBitsZeroAtReset : Prop := State.reset.ebit.toNat < 2

/-- Derived from 10_state.md R54: no host move and no command changes APPROX, so a run has one
table. -/
def Obligations.ApproxNeverChanges : Prop :=
  (∀ s t : State, step s = .next t → t.approx = s.approx) ∧
  ∀ (moves : List HostMove) (s t : State), runMoves moves s = .next t → t.approx = s.approx

/-- Derived from 70_reset_and_hazards.md R297: a run does not fault and does not hang; every list of
moves is accepted to its end from every state. That the port is then empty is the model's own form
of the end of a run (log entry 2). -/
def Obligations.EveryRunCompletes : Prop :=
  ∀ (moves : List HostMove) (s : State), ∃ t, runMoves moves s = .next t ∧ t.port = []

/-- The model's choice (log entry 3, on 70_reset_and_hazards.md R291): with no move waiting at the
port the block waits and nothing changes. -/
def Obligations.IdlePortWaits : Prop := ∀ s : State, s.port = [] → step s = .next s
end

