-- ==== Sys2Proof/Laws/Bits.lean ====
section
/-! SUPPORT. What the bit operators can do: bytes of a concatenation, parity as a linear function, and
the masks of the default table as bit positions (spec/00_scope.md R7 to R9). -/

namespace Sys2Proof.Machine

/-! ### Bytes -/

/-- The bits of a concatenation of four bytes. -/
theorem getLsbD_cat8 (a b c d : Byte) (i : Nat) :
    (cat8 a b c d).getLsbD i =
      if i < 8 then d.getLsbD i else if i < 16 then c.getLsbD (i - 8)
      else if i < 24 then b.getLsbD (i - 16) else a.getLsbD (i - 24) := by
  have h : (cat8 a b c d).getLsbD i = (a ++ b ++ c ++ d : BitVec (8 + 8 + 8 + 8)).getLsbD i := rfl
  rw [h, BitVec.getLsbD_append, BitVec.getLsbD_append, BitVec.getLsbD_append]
  have e2 : i - 8 - 8 = i - 16 := by omega
  have c1 : (i - 8 < 8) ↔ i < 16 := by omega
  have c2 : (i - 8 - 8 < 8) ↔ i < 24 := by omega
  simp only [c1, e2]
  split_ifs <;> first | rfl | omega

@[simp] theorem byte0_cat8 (a b c d : Byte) : byte0 (cat8 a b c d) = a := by
  apply BitVec.eq_of_getLsbD_eq
  intro i hi
  simp only [byte0, BitVec.getLsbD_extractLsb', getLsbD_cat8, hi, decide_true, Bool.true_and]
  rw [if_neg (by omega), if_neg (by omega), if_neg (by omega), Nat.add_sub_cancel_left]

@[simp] theorem byte1_cat8 (a b c d : Byte) : byte1 (cat8 a b c d) = b := by
  apply BitVec.eq_of_getLsbD_eq
  intro i hi
  simp only [byte1, BitVec.getLsbD_extractLsb', getLsbD_cat8, hi, decide_true, Bool.true_and]
  rw [if_neg (by omega), if_neg (by omega), if_pos (by omega), Nat.add_sub_cancel_left]

@[simp] theorem byte2_cat8 (a b c d : Byte) : byte2 (cat8 a b c d) = c := by
  apply BitVec.eq_of_getLsbD_eq
  intro i hi
  simp only [byte2, BitVec.getLsbD_extractLsb', getLsbD_cat8, hi, decide_true, Bool.true_and]
  rw [if_neg (by omega), if_pos (by omega), Nat.add_sub_cancel_left]

@[simp] theorem byte3_cat8 (a b c d : Byte) : byte3 (cat8 a b c d) = d := by
  apply BitVec.eq_of_getLsbD_eq
  intro i hi
  simp only [byte3, BitVec.getLsbD_extractLsb', getLsbD_cat8, hi, decide_true, Bool.true_and]
  rw [if_pos (by omega), Nat.zero_add]

/-- A word is determined by its four bytes. -/
theorem cat8_bytes (v : Word) : cat8 (byte0 v) (byte1 v) (byte2 v) (byte3 v) = v := by
  apply BitVec.eq_of_getLsbD_eq
  intro i hi
  simp only [getLsbD_cat8, byte0, byte1, byte2, byte3, BitVec.getLsbD_extractLsb']
  split_ifs with h1 h2 h3
  · simp [h1]
  · rw [show 8 + (i - 8) = i by omega]; simp; omega
  · rw [show 16 + (i - 16) = i by omega]; simp; omega
  · rw [show 24 + (i - 24) = i by omega]; simp; omega

/-- Words with the same four bytes are equal. -/
theorem eq_of_bytes {v w : Word} (h0 : byte0 v = byte0 w) (h1 : byte1 v = byte1 w)
    (h2 : byte2 v = byte2 w) (h3 : byte3 v = byte3 w) : v = w := by
  rw [← cat8_bytes v, ← cat8_bytes w, h0, h1, h2, h3]

@[simp] theorem byte0_xor (v w : Word) : byte0 (v ^^^ w) = byte0 v ^^^ byte0 w := by
  apply BitVec.eq_of_getLsbD_eq; intro i hi; simp [byte0, hi]

@[simp] theorem byte1_xor (v w : Word) : byte1 (v ^^^ w) = byte1 v ^^^ byte1 w := by
  apply BitVec.eq_of_getLsbD_eq; intro i hi; simp [byte1, hi]

@[simp] theorem byte2_xor (v w : Word) : byte2 (v ^^^ w) = byte2 v ^^^ byte2 w := by
  apply BitVec.eq_of_getLsbD_eq; intro i hi; simp [byte2, hi]

@[simp] theorem byte3_xor (v w : Word) : byte3 (v ^^^ w) = byte3 v ^^^ byte3 w := by
  apply BitVec.eq_of_getLsbD_eq; intro i hi; simp [byte3, hi]

/-! ### Parity and bit positions -/

theorem foldl_parity (f : Nat → Bool) (l : List Nat) (acc : Bool) :
    l.foldl (fun a i => a ^^ f i) acc = (acc ^^ l.foldl (fun a i => a ^^ f i) false) := by
  induction l generalizing acc with
  | nil => simp
  | cons i l ih =>
    simp only [List.foldl_cons, Bool.false_xor]
    rw [ih (acc ^^ f i), ih (f i), Bool.xor_assoc]

theorem foldl_parity_xor (f g : Nat → Bool) (l : List Nat) :
    l.foldl (fun a i => a ^^ (f i ^^ g i)) false =
      (l.foldl (fun a i => a ^^ f i) false ^^ l.foldl (fun a i => a ^^ g i) false) := by
  induction l with
  | nil => rfl
  | cons i l ih =>
    simp only [List.foldl_cons, Bool.false_xor]
    rw [foldl_parity _ l (f i ^^ g i), foldl_parity f l (f i), foldl_parity g l (g i), ih]
    cases f i <;> cases g i <;> simp

/-- Parity is linear. -/
theorem par_xor (v w : Word) : par (v ^^^ w) = (par v ^^ par w) := by
  simp only [par, BitVec.getLsbD_xor]
  exact foldl_parity_xor _ _ _

@[simp] theorem par_zero : par 0 = false := by decide

/-- The parity of a masked word is linear in the word. -/
theorem par_and_xor (m v w : Word) : par (m &&& (v ^^^ w)) = (par (m &&& v) ^^ par (m &&& w)) := by
  have h : m &&& (v ^^^ w) = (m &&& v) ^^^ (m &&& w) := by
    apply BitVec.eq_of_getLsbD_eq
    intro i _
    simp only [BitVec.getLsbD_and, BitVec.getLsbD_xor, Bool.and_xor_distrib_left]
  rw [h, par_xor]

@[simp] theorem par_zero_and (v : Word) : par (0 &&& v) = false := by
  have h : (0 : Word) &&& v = 0 := by simp
  rw [h]; exact par_zero

@[simp] theorem bitAt_xor (p : Nat) (v w : Word) : bitAt p (v ^^^ w) = (bitAt p v ^^ bitAt p w) := by
  simp [bitAt]

/-- The XOR of the bits at given positions is linear. -/
theorem bitsAt_xor (ps : List Nat) (v w : Word) :
    bitsAt ps (v ^^^ w) = (bitsAt ps v ^^ bitsAt ps w) := by
  induction ps with
  | nil => rfl
  | cons p ps ih =>
    simp only [bitsAt, ih, bitAt_xor]
    cases bitAt p v <;> cases bitAt p w <;> cases bitsAt ps v <;> cases bitsAt ps w <;> rfl

@[simp] theorem selectWord_true (v : Word) : selectWord true v = v := rfl

@[simp] theorem selectWord_false (v : Word) : selectWord false v = 0 := rfl

end Sys2Proof.Machine
end

