-- ==== Sys2Proof/Laws/Cipher.lean ====
section
/-! SUPPORT. The bytes of F, and what the cipher's and the evaluator's structures hold
(spec/41_transform.md R122, spec/46_derive.md R230, spec/43_evaluate.md R160). -/

namespace Sys2Proof.Machine

@[simp] theorem byte0_F (x : Word) : byte0 (F x) = o0Of x := byte0_cat8 _ _ _ _

@[simp] theorem byte1_F (x : Word) : byte1 (F x) = o1Of x := byte1_cat8 _ _ _ _

@[simp] theorem byte2_F (x : Word) : byte2 (F x) = o2Of x := byte2_cat8 _ _ _ _

@[simp] theorem byte3_F (x : Word) : byte3 (F x) = o3Of x := byte3_cat8 _ _ _ _

/-- Adding the carry-free top bit is flipping it. -/
theorem xor_top_add (a b : Byte) : (a ^^^ 0x80) + b = (a + b) ^^^ 0x80 := by
  have h : ∀ c : BitVec 8, c ^^^ 0x80 = c + 0x80 := by decide
  rw [h a, h (a + b), BitVec.add_assoc, BitVec.add_comm 0x80 b, ← BitVec.add_assoc]

/-- rotl2 moves bit 7 to bit 1. -/
theorem rotl2_xor_top (a : Byte) : rotl2 (a ^^^ 0x80) = rotl2 a ^^^ 0x02 := by
  revert a; decide

@[simp] theorem ys_y0 (pl pr k0 k1 k2 k3 : Word) : (ys pl pr k0 k1 k2 k3).y0 = y0Of pl pr k0 := rfl

@[simp] theorem ys_y1 (pl pr k0 k1 k2 k3 : Word) :
    (ys pl pr k0 k1 k2 k3).y1 = y1Of pl (y0Of pl pr k0) k1 := rfl

@[simp] theorem ys_y2 (pl pr k0 k1 k2 k3 : Word) :
    (ys pl pr k0 k1 k2 k3).y2 = y2Of pl pr (y1Of pl (y0Of pl pr k0) k1) k2 := rfl

@[simp] theorem ys_y3 (pl pr k0 k1 k2 k3 : Word) :
    (ys pl pr k0 k1 k2 k3).y3 =
      y3Of pl (y0Of pl pr k0) (y2Of pl pr (y1Of pl (y0Of pl pr k0) k1) k2) k3 := rfl

@[simp] theorem evalOutputs_y0 (p : Pair) (k0 k1 k2 : Word) :
    (evalOutputs p k0 k1 k2).y0 = y0Of p.pl p.pr k0 := rfl

@[simp] theorem evalOutputs_y1 (p : Pair) (k0 k1 k2 : Word) :
    (evalOutputs p k0 k1 k2).y1 = y1Of p.pl (y0Of p.pl p.pr k0) k1 := rfl

@[simp] theorem evalOutputs_y2 (p : Pair) (k0 k1 k2 : Word) :
    (evalOutputs p k0 k1 k2).y2 = y2Of p.pl p.pr (y1Of p.pl (y0Of p.pl p.pr k0) k1) k2 := rfl

/-- An evaluator sees the candidate through the transform alone: two candidates whose transform
parities agree give the same bit. -/
theorem evalBit_congr_cand (e : ApproxEntry) (p : Pair) (k0 k1 k2 c c' : Word)
    (h : transformParity e p (evalOutputs p k0 k1 k2) c =
      transformParity e p (evalOutputs p k0 k1 k2) c') :
    evalBit e p k0 k1 k2 c = evalBit e p k0 k1 k2 c' := by
  simp only [evalBit, h]

end Sys2Proof.Machine
end

