-- ==== Sys2Proof/Laws/Decode.lean ====
section
/-! SUPPORT. The fields of an assembled command word, and the operand fields as inverses of their
readings (spec/30_encoding.md R91, R93, R94, R104). -/

namespace Sys2Proof

@[simp] theorem stageOfBits_stageBits (s : Stage) : stageOfBits (stageBits s) = s := by
  cases s <;> rfl

@[simp] theorem stageBits_stageOfBits (b : BitVec 2) : stageBits (stageOfBits b) = b := by
  revert b; decide

@[simp] theorem variantOfBit_variantBit (v : Variant) : variantOfBit (variantBit v) = v := by
  cases v <;> rfl

@[simp] theorem variantBit_variantOfBit (b : BitVec 1) : variantBit (variantOfBit b) = b := by
  revert b; decide

/-- The bits of an assembled word. -/
theorem getLsbD_assembleWord (op : BitVec 4) (stg : BitVec 2) (var acc : BitVec 1)
    (imm : BitVec 20) (i : Nat) :
    (assembleWord op stg var acc imm).getLsbD i =
      if i < 20 then imm.getLsbD i else if i < 24 then false
      else if i < 25 then acc.getLsbD (i - 24) else if i < 26 then var.getLsbD (i - 25)
      else if i < 28 then stg.getLsbD (i - 26) else op.getLsbD (i - 28) := by
  have h : (assembleWord op stg var acc imm).getLsbD i =
      (op ++ stg ++ var ++ acc ++ (0 : BitVec 4) ++ imm :
        BitVec (4 + 2 + 1 + 1 + 4 + 20)).getLsbD i := rfl
  rw [h]
  repeat rw [BitVec.getLsbD_append]
  simp only [Nat.sub_sub]
  split_ifs <;> first | rfl | omega | simp

/-- The fields of an assembled word are the fields it was assembled from. -/
theorem fieldsOf_assembleWord (op : BitVec 4) (stg : BitVec 2) (var acc : BitVec 1)
    (imm : BitVec 20) :
    fieldsOf (assembleWord op stg var acc imm) =
      { op := op, stg := stg, var := var, acc := acc, rsv := 0, imm := imm } := by
  simp only [fieldsOf, CommandFields.mk.injEq]
  refine ⟨?_, ?_, ?_, ?_, ?_, ?_⟩ <;> apply BitVec.eq_of_getLsbD_eq <;> intro i hi <;>
    simp only [BitVec.getLsbD_extractLsb', getLsbD_assembleWord, hi, decide_true, Bool.true_and]
  · repeat rw [if_neg (by omega)]
    rw [Nat.add_sub_cancel_left]
  · repeat rw [if_neg (by omega)]
    rw [if_pos (by omega), Nat.add_sub_cancel_left]
  · repeat rw [if_neg (by omega)]
    rw [if_pos (by omega), Nat.add_sub_cancel_left]
  · repeat rw [if_neg (by omega)]
    rw [if_pos (by omega), Nat.add_sub_cancel_left]
  · rw [if_neg (by omega), if_pos (by omega)]
    simp
  · rw [if_pos (by omega), Nat.zero_add]

/-- A word is determined by its fields. -/
theorem eq_of_fieldsOf {w w' : Word} (h : fieldsOf w = fieldsOf w') : w = w' := by
  simp only [fieldsOf, CommandFields.mk.injEq] at h
  obtain ⟨hop, hstg, hvar, hacc, hrsv, himm⟩ := h
  apply BitVec.eq_of_getLsbD_eq
  intro i hi
  have bit : ∀ (start len : Nat), w.extractLsb' start len = w'.extractLsb' start len →
      start ≤ i → i < start + len → w.getLsbD i = w'.getLsbD i := by
    intro start len he h1 h2
    have := congrArg (fun v => v.getLsbD (i - start)) he
    have e : start + (i - start) = i := by omega
    have l : i - start < len := by omega
    simpa [BitVec.getLsbD_extractLsb', e, l] using this
  by_cases h1 : i < 20
  · exact bit 0 20 himm (by omega) (by omega)
  by_cases h2 : i < 24
  · exact bit 20 4 hrsv (by omega) (by omega)
  by_cases h3 : i < 25
  · exact bit 24 1 hacc (by omega) (by omega)
  by_cases h4 : i < 26
  · exact bit 25 1 hvar (by omega) (by omega)
  by_cases h5 : i < 28
  · exact bit 26 2 hstg (by omega) (by omega)
  · exact bit 28 4 hop (by omega) (by omega)

/-- What a successful decode says of the fields: RSV is 0, and the case split on OP gave it. -/
theorem decode_ok_cases {w : Word} {i : Instr} (h : decode w = .ok i) :
    (fieldsOf w).rsv = 0 ∧ decodeFields (fieldsOf w) = .ok i := by
  unfold decode at h
  split at h
  · exact ⟨‹_›, h⟩
  · cases h

/-- What a "require" that succeeds says. -/
theorem requireZero_ok {zero : Bool} {i j : Instr} (h : requireZero zero i = .ok j) :
    zero = true ∧ j = i := by
  unfold requireZero at h
  split at h
  · injection h with h; exact ⟨‹_›, h.symm⟩
  · cases h

end Sys2Proof
end

