-- ==== Sys2Proof/Laws/Flags.lean ====
section
/-! SUPPORT. What the flag computations can do, field by field (spec/10_state.md R50 to R52,
spec/45_filter.md R211 to R213). -/

namespace Sys2Proof.Machine

/-! ### FILT as a word -/

@[simp] theorem ofWord_toWord (f : Filt) : Filt.ofWord f.toWord = f := by
  obtain ⟨a, b, c, d, e⟩ := f
  cases a <;> cases b <;> cases c <;> cases d <;> cases e <;> rfl

/-- FILT reads differently in any two states of its fields. -/
theorem toWord_injective {f g : Filt} (h : f.toWord = g.toWord) : f = g := by
  rw [← ofWord_toWord f, h, ofWord_toWord]

@[simp] theorem ofWord_seen (v : Word) : (Filt.ofWord v).seen = v.getLsbD 0 := rfl
@[simp] theorem ofWord_ref (v : Word) : (Filt.ofWord v).ref = v.getLsbD 1 := rfl
@[simp] theorem ofWord_ok (v : Word) : (Filt.ofWord v).ok = v.getLsbD 2 := rfl
@[simp] theorem ofWord_matched (v : Word) : (Filt.ofWord v).matched = v.getLsbD 3 := rfl
@[simp] theorem ofWord_vok (v : Word) : (Filt.ofWord v).vok = v.getLsbD 4 := rfl

@[simp] theorem toWord_cleared : Filt.cleared.toWord = 0x00000014 := by decide

/-! ### accumulate, recordMatch, validate -/

/-- FiltAcc on the first bit since FCLR. -/
theorem accumulate_first {f : Filt} (b : Bool) (h : f.seen = false) :
    f.accumulate b = { f with ref := b, seen := true } := by
  simp [Filt.accumulate, h]

/-- FiltAcc on a later bit that differs from the recorded one. -/
theorem accumulate_differs {f : Filt} {b : Bool} (h : f.seen = true) (hb : b ≠ f.ref) :
    f.accumulate b = { f with ok := false } := by
  simp [Filt.accumulate, h, hb]

/-- FiltAcc on a later bit that equals the recorded one. -/
theorem accumulate_agrees {f : Filt} {b : Bool} (h : f.seen = true) (hb : b = f.ref) :
    f.accumulate b = f := by
  simp [Filt.accumulate, h, hb]

@[simp] theorem accumulate_seen (f : Filt) (b : Bool) : (f.accumulate b).seen = true := by
  unfold Filt.accumulate
  split_ifs with h <;> simp_all

@[simp] theorem accumulate_matched (f : Filt) (b : Bool) :
    (f.accumulate b).matched = f.matched := by
  unfold Filt.accumulate
  split_ifs <;> rfl

@[simp] theorem accumulate_vok (f : Filt) (b : Bool) : (f.accumulate b).vok = f.vok := by
  unfold Filt.accumulate
  split_ifs <;> rfl

/-- FiltAcc never sets OK. -/
theorem accumulate_ok_false {f : Filt} (b : Bool) (h : f.ok = false) :
    (f.accumulate b).ok = false := by
  unfold Filt.accumulate
  split_ifs <;> simp [h]

@[simp] theorem recordMatch_seen (f : Filt) (m : Bool) : (f.recordMatch m).seen = f.seen := rfl
@[simp] theorem recordMatch_ref (f : Filt) (m : Bool) : (f.recordMatch m).ref = f.ref := rfl
@[simp] theorem recordMatch_ok (f : Filt) (m : Bool) : (f.recordMatch m).ok = f.ok := rfl
@[simp] theorem recordMatch_matched (f : Filt) (m : Bool) : (f.recordMatch m).matched = m := rfl
@[simp] theorem recordMatch_vok (f : Filt) (m : Bool) : (f.recordMatch m).vok = f.vok := rfl

@[simp] theorem validate_seen (f : Filt) (m : Bool) : (f.validate m).seen = f.seen := rfl
@[simp] theorem validate_ref (f : Filt) (m : Bool) : (f.validate m).ref = f.ref := rfl
@[simp] theorem validate_ok (f : Filt) (m : Bool) : (f.validate m).ok = f.ok := rfl
@[simp] theorem validate_matched (f : Filt) (m : Bool) : (f.validate m).matched = f.matched := rfl
@[simp] theorem validate_vok (f : Filt) (m : Bool) : (f.validate m).vok = (f.vok && m) := rfl

/-! ### STATUS -/

@[simp] theorem clearOnes_ill (st : Status) (v : Word) :
    (st.clearOnes v).ill = (st.ill && !v.getLsbD 0) := rfl

@[simp] theorem clearOnes_herr (st : Status) (v : Word) :
    (st.clearOnes v).herr = (st.herr && !v.getLsbD 1) := rfl

@[simp] theorem withIll_ill (st : Status) : st.withIll.ill = true := rfl
@[simp] theorem withIll_herr (st : Status) : st.withIll.herr = st.herr := rfl
@[simp] theorem withHerr_ill (st : Status) : st.withHerr.ill = st.ill := rfl
@[simp] theorem withHerr_herr (st : Status) : st.withHerr.herr = true := rfl

end Sys2Proof.Machine
end

