-- ==== Sys2Proof/Laws/State.lean ====
section
/-! SUPPORT. One lemma for each field of State under each named update, so that no later proof unfolds
a record update. -/

namespace Sys2Proof.Machine

/-! ### raiseIll -/

@[simp] theorem raiseIll_pl (s : State) : s.raiseIll.pl = s.pl := rfl
@[simp] theorem raiseIll_pr (s : State) : s.raiseIll.pr = s.pr := rfl
@[simp] theorem raiseIll_cl (s : State) : s.raiseIll.cl = s.cl := rfl
@[simp] theorem raiseIll_cr (s : State) : s.raiseIll.cr = s.cr := rfl
@[simp] theorem raiseIll_k0 (s : State) : s.raiseIll.k0 = s.k0 := rfl
@[simp] theorem raiseIll_k1 (s : State) : s.raiseIll.k1 = s.k1 := rfl
@[simp] theorem raiseIll_k2 (s : State) : s.raiseIll.k2 = s.k2 := rfl
@[simp] theorem raiseIll_k3 (s : State) : s.raiseIll.k3 = s.k3 := rfl
@[simp] theorem raiseIll_k4 (s : State) : s.raiseIll.k4 = s.k4 := rfl
@[simp] theorem raiseIll_k5 (s : State) : s.raiseIll.k5 = s.k5 := rfl
@[simp] theorem raiseIll_cand (s : State) : s.raiseIll.cand = s.cand := rfl
@[simp] theorem raiseIll_ink (s : State) : s.raiseIll.ink = s.ink := rfl
@[simp] theorem raiseIll_x (s : State) : s.raiseIll.x = s.x := rfl
@[simp] theorem raiseIll_t (s : State) : s.raiseIll.t = s.t := rfl
@[simp] theorem raiseIll_dl (s : State) : s.raiseIll.dl = s.dl := rfl
@[simp] theorem raiseIll_dr (s : State) : s.raiseIll.dr = s.dr := rfl
@[simp] theorem raiseIll_y0 (s : State) : s.raiseIll.y0 = s.y0 := rfl
@[simp] theorem raiseIll_y1 (s : State) : s.raiseIll.y1 = s.y1 := rfl
@[simp] theorem raiseIll_y2 (s : State) : s.raiseIll.y2 = s.y2 := rfl
@[simp] theorem raiseIll_y3 (s : State) : s.raiseIll.y3 = s.y3 := rfl
@[simp] theorem raiseIll_ebit (s : State) : s.raiseIll.ebit = s.ebit := rfl
@[simp] theorem raiseIll_filt (s : State) : s.raiseIll.filt = s.filt := rfl
@[simp] theorem raiseIll_status (s : State) : s.raiseIll.status = s.status.withIll := rfl
@[simp] theorem raiseIll_approx (s : State) : s.raiseIll.approx = s.approx := rfl
@[simp] theorem raiseIll_port (s : State) : s.raiseIll.port = s.port := rfl
@[simp] theorem raiseIll_reads (s : State) : s.raiseIll.reads = s.reads := rfl

/-! ### raiseHerr -/

@[simp] theorem raiseHerr_pl (s : State) : s.raiseHerr.pl = s.pl := rfl
@[simp] theorem raiseHerr_pr (s : State) : s.raiseHerr.pr = s.pr := rfl
@[simp] theorem raiseHerr_cl (s : State) : s.raiseHerr.cl = s.cl := rfl
@[simp] theorem raiseHerr_cr (s : State) : s.raiseHerr.cr = s.cr := rfl
@[simp] theorem raiseHerr_k0 (s : State) : s.raiseHerr.k0 = s.k0 := rfl
@[simp] theorem raiseHerr_k1 (s : State) : s.raiseHerr.k1 = s.k1 := rfl
@[simp] theorem raiseHerr_k2 (s : State) : s.raiseHerr.k2 = s.k2 := rfl
@[simp] theorem raiseHerr_k3 (s : State) : s.raiseHerr.k3 = s.k3 := rfl
@[simp] theorem raiseHerr_k4 (s : State) : s.raiseHerr.k4 = s.k4 := rfl
@[simp] theorem raiseHerr_k5 (s : State) : s.raiseHerr.k5 = s.k5 := rfl
@[simp] theorem raiseHerr_cand (s : State) : s.raiseHerr.cand = s.cand := rfl
@[simp] theorem raiseHerr_ink (s : State) : s.raiseHerr.ink = s.ink := rfl
@[simp] theorem raiseHerr_x (s : State) : s.raiseHerr.x = s.x := rfl
@[simp] theorem raiseHerr_t (s : State) : s.raiseHerr.t = s.t := rfl
@[simp] theorem raiseHerr_dl (s : State) : s.raiseHerr.dl = s.dl := rfl
@[simp] theorem raiseHerr_dr (s : State) : s.raiseHerr.dr = s.dr := rfl
@[simp] theorem raiseHerr_y0 (s : State) : s.raiseHerr.y0 = s.y0 := rfl
@[simp] theorem raiseHerr_y1 (s : State) : s.raiseHerr.y1 = s.y1 := rfl
@[simp] theorem raiseHerr_y2 (s : State) : s.raiseHerr.y2 = s.y2 := rfl
@[simp] theorem raiseHerr_y3 (s : State) : s.raiseHerr.y3 = s.y3 := rfl
@[simp] theorem raiseHerr_ebit (s : State) : s.raiseHerr.ebit = s.ebit := rfl
@[simp] theorem raiseHerr_filt (s : State) : s.raiseHerr.filt = s.filt := rfl
@[simp] theorem raiseHerr_status (s : State) : s.raiseHerr.status = s.status.withHerr := rfl
@[simp] theorem raiseHerr_approx (s : State) : s.raiseHerr.approx = s.approx := rfl
@[simp] theorem raiseHerr_port (s : State) : s.raiseHerr.port = s.port := rfl
@[simp] theorem raiseHerr_reads (s : State) : s.raiseHerr.reads = s.reads := rfl

/-! ### setEbit -/

@[simp] theorem setEbit_pl (s : State) (b : Bool) : (s.setEbit b).pl = s.pl := rfl
@[simp] theorem setEbit_pr (s : State) (b : Bool) : (s.setEbit b).pr = s.pr := rfl
@[simp] theorem setEbit_cl (s : State) (b : Bool) : (s.setEbit b).cl = s.cl := rfl
@[simp] theorem setEbit_cr (s : State) (b : Bool) : (s.setEbit b).cr = s.cr := rfl
@[simp] theorem setEbit_k0 (s : State) (b : Bool) : (s.setEbit b).k0 = s.k0 := rfl
@[simp] theorem setEbit_k1 (s : State) (b : Bool) : (s.setEbit b).k1 = s.k1 := rfl
@[simp] theorem setEbit_k2 (s : State) (b : Bool) : (s.setEbit b).k2 = s.k2 := rfl
@[simp] theorem setEbit_k3 (s : State) (b : Bool) : (s.setEbit b).k3 = s.k3 := rfl
@[simp] theorem setEbit_k4 (s : State) (b : Bool) : (s.setEbit b).k4 = s.k4 := rfl
@[simp] theorem setEbit_k5 (s : State) (b : Bool) : (s.setEbit b).k5 = s.k5 := rfl
@[simp] theorem setEbit_cand (s : State) (b : Bool) : (s.setEbit b).cand = s.cand := rfl
@[simp] theorem setEbit_ink (s : State) (b : Bool) : (s.setEbit b).ink = s.ink := rfl
@[simp] theorem setEbit_x (s : State) (b : Bool) : (s.setEbit b).x = s.x := rfl
@[simp] theorem setEbit_t (s : State) (b : Bool) : (s.setEbit b).t = s.t := rfl
@[simp] theorem setEbit_dl (s : State) (b : Bool) : (s.setEbit b).dl = s.dl := rfl
@[simp] theorem setEbit_dr (s : State) (b : Bool) : (s.setEbit b).dr = s.dr := rfl
@[simp] theorem setEbit_y0 (s : State) (b : Bool) : (s.setEbit b).y0 = s.y0 := rfl
@[simp] theorem setEbit_y1 (s : State) (b : Bool) : (s.setEbit b).y1 = s.y1 := rfl
@[simp] theorem setEbit_y2 (s : State) (b : Bool) : (s.setEbit b).y2 = s.y2 := rfl
@[simp] theorem setEbit_y3 (s : State) (b : Bool) : (s.setEbit b).y3 = s.y3 := rfl
@[simp] theorem setEbit_ebit (s : State) (b : Bool) : (s.setEbit b).ebit = (BitVec.ofBool b).setWidth 32 := rfl
@[simp] theorem setEbit_filt (s : State) (b : Bool) : (s.setEbit b).filt = s.filt := rfl
@[simp] theorem setEbit_status (s : State) (b : Bool) : (s.setEbit b).status = s.status := rfl
@[simp] theorem setEbit_approx (s : State) (b : Bool) : (s.setEbit b).approx = s.approx := rfl
@[simp] theorem setEbit_port (s : State) (b : Bool) : (s.setEbit b).port = s.port := rfl
@[simp] theorem setEbit_reads (s : State) (b : Bool) : (s.setEbit b).reads = s.reads := rfl

/-! ### setFilt -/

@[simp] theorem setFilt_pl (s : State) (f : Filt) : (s.setFilt f).pl = s.pl := rfl
@[simp] theorem setFilt_pr (s : State) (f : Filt) : (s.setFilt f).pr = s.pr := rfl
@[simp] theorem setFilt_cl (s : State) (f : Filt) : (s.setFilt f).cl = s.cl := rfl
@[simp] theorem setFilt_cr (s : State) (f : Filt) : (s.setFilt f).cr = s.cr := rfl
@[simp] theorem setFilt_k0 (s : State) (f : Filt) : (s.setFilt f).k0 = s.k0 := rfl
@[simp] theorem setFilt_k1 (s : State) (f : Filt) : (s.setFilt f).k1 = s.k1 := rfl
@[simp] theorem setFilt_k2 (s : State) (f : Filt) : (s.setFilt f).k2 = s.k2 := rfl
@[simp] theorem setFilt_k3 (s : State) (f : Filt) : (s.setFilt f).k3 = s.k3 := rfl
@[simp] theorem setFilt_k4 (s : State) (f : Filt) : (s.setFilt f).k4 = s.k4 := rfl
@[simp] theorem setFilt_k5 (s : State) (f : Filt) : (s.setFilt f).k5 = s.k5 := rfl
@[simp] theorem setFilt_cand (s : State) (f : Filt) : (s.setFilt f).cand = s.cand := rfl
@[simp] theorem setFilt_ink (s : State) (f : Filt) : (s.setFilt f).ink = s.ink := rfl
@[simp] theorem setFilt_x (s : State) (f : Filt) : (s.setFilt f).x = s.x := rfl
@[simp] theorem setFilt_t (s : State) (f : Filt) : (s.setFilt f).t = s.t := rfl
@[simp] theorem setFilt_dl (s : State) (f : Filt) : (s.setFilt f).dl = s.dl := rfl
@[simp] theorem setFilt_dr (s : State) (f : Filt) : (s.setFilt f).dr = s.dr := rfl
@[simp] theorem setFilt_y0 (s : State) (f : Filt) : (s.setFilt f).y0 = s.y0 := rfl
@[simp] theorem setFilt_y1 (s : State) (f : Filt) : (s.setFilt f).y1 = s.y1 := rfl
@[simp] theorem setFilt_y2 (s : State) (f : Filt) : (s.setFilt f).y2 = s.y2 := rfl
@[simp] theorem setFilt_y3 (s : State) (f : Filt) : (s.setFilt f).y3 = s.y3 := rfl
@[simp] theorem setFilt_ebit (s : State) (f : Filt) : (s.setFilt f).ebit = s.ebit := rfl
@[simp] theorem setFilt_filt (s : State) (f : Filt) : (s.setFilt f).filt = f := rfl
@[simp] theorem setFilt_status (s : State) (f : Filt) : (s.setFilt f).status = s.status := rfl
@[simp] theorem setFilt_approx (s : State) (f : Filt) : (s.setFilt f).approx = s.approx := rfl
@[simp] theorem setFilt_port (s : State) (f : Filt) : (s.setFilt f).port = s.port := rfl
@[simp] theorem setFilt_reads (s : State) (f : Filt) : (s.setFilt f).reads = s.reads := rfl

/-! ### setStatus -/

@[simp] theorem setStatus_pl (s : State) (st : Status) : (s.setStatus st).pl = s.pl := rfl
@[simp] theorem setStatus_pr (s : State) (st : Status) : (s.setStatus st).pr = s.pr := rfl
@[simp] theorem setStatus_cl (s : State) (st : Status) : (s.setStatus st).cl = s.cl := rfl
@[simp] theorem setStatus_cr (s : State) (st : Status) : (s.setStatus st).cr = s.cr := rfl
@[simp] theorem setStatus_k0 (s : State) (st : Status) : (s.setStatus st).k0 = s.k0 := rfl
@[simp] theorem setStatus_k1 (s : State) (st : Status) : (s.setStatus st).k1 = s.k1 := rfl
@[simp] theorem setStatus_k2 (s : State) (st : Status) : (s.setStatus st).k2 = s.k2 := rfl
@[simp] theorem setStatus_k3 (s : State) (st : Status) : (s.setStatus st).k3 = s.k3 := rfl
@[simp] theorem setStatus_k4 (s : State) (st : Status) : (s.setStatus st).k4 = s.k4 := rfl
@[simp] theorem setStatus_k5 (s : State) (st : Status) : (s.setStatus st).k5 = s.k5 := rfl
@[simp] theorem setStatus_cand (s : State) (st : Status) : (s.setStatus st).cand = s.cand := rfl
@[simp] theorem setStatus_ink (s : State) (st : Status) : (s.setStatus st).ink = s.ink := rfl
@[simp] theorem setStatus_x (s : State) (st : Status) : (s.setStatus st).x = s.x := rfl
@[simp] theorem setStatus_t (s : State) (st : Status) : (s.setStatus st).t = s.t := rfl
@[simp] theorem setStatus_dl (s : State) (st : Status) : (s.setStatus st).dl = s.dl := rfl
@[simp] theorem setStatus_dr (s : State) (st : Status) : (s.setStatus st).dr = s.dr := rfl
@[simp] theorem setStatus_y0 (s : State) (st : Status) : (s.setStatus st).y0 = s.y0 := rfl
@[simp] theorem setStatus_y1 (s : State) (st : Status) : (s.setStatus st).y1 = s.y1 := rfl
@[simp] theorem setStatus_y2 (s : State) (st : Status) : (s.setStatus st).y2 = s.y2 := rfl
@[simp] theorem setStatus_y3 (s : State) (st : Status) : (s.setStatus st).y3 = s.y3 := rfl
@[simp] theorem setStatus_ebit (s : State) (st : Status) : (s.setStatus st).ebit = s.ebit := rfl
@[simp] theorem setStatus_filt (s : State) (st : Status) : (s.setStatus st).filt = s.filt := rfl
@[simp] theorem setStatus_status (s : State) (st : Status) : (s.setStatus st).status = st := rfl
@[simp] theorem setStatus_approx (s : State) (st : Status) : (s.setStatus st).approx = s.approx := rfl
@[simp] theorem setStatus_port (s : State) (st : Status) : (s.setStatus st).port = s.port := rfl
@[simp] theorem setStatus_reads (s : State) (st : Status) : (s.setStatus st).reads = s.reads := rfl

/-! ### logRead -/

@[simp] theorem logRead_pl (s : State) (v : Word) : (s.logRead v).pl = s.pl := rfl
@[simp] theorem logRead_pr (s : State) (v : Word) : (s.logRead v).pr = s.pr := rfl
@[simp] theorem logRead_cl (s : State) (v : Word) : (s.logRead v).cl = s.cl := rfl
@[simp] theorem logRead_cr (s : State) (v : Word) : (s.logRead v).cr = s.cr := rfl
@[simp] theorem logRead_k0 (s : State) (v : Word) : (s.logRead v).k0 = s.k0 := rfl
@[simp] theorem logRead_k1 (s : State) (v : Word) : (s.logRead v).k1 = s.k1 := rfl
@[simp] theorem logRead_k2 (s : State) (v : Word) : (s.logRead v).k2 = s.k2 := rfl
@[simp] theorem logRead_k3 (s : State) (v : Word) : (s.logRead v).k3 = s.k3 := rfl
@[simp] theorem logRead_k4 (s : State) (v : Word) : (s.logRead v).k4 = s.k4 := rfl
@[simp] theorem logRead_k5 (s : State) (v : Word) : (s.logRead v).k5 = s.k5 := rfl
@[simp] theorem logRead_cand (s : State) (v : Word) : (s.logRead v).cand = s.cand := rfl
@[simp] theorem logRead_ink (s : State) (v : Word) : (s.logRead v).ink = s.ink := rfl
@[simp] theorem logRead_x (s : State) (v : Word) : (s.logRead v).x = s.x := rfl
@[simp] theorem logRead_t (s : State) (v : Word) : (s.logRead v).t = s.t := rfl
@[simp] theorem logRead_dl (s : State) (v : Word) : (s.logRead v).dl = s.dl := rfl
@[simp] theorem logRead_dr (s : State) (v : Word) : (s.logRead v).dr = s.dr := rfl
@[simp] theorem logRead_y0 (s : State) (v : Word) : (s.logRead v).y0 = s.y0 := rfl
@[simp] theorem logRead_y1 (s : State) (v : Word) : (s.logRead v).y1 = s.y1 := rfl
@[simp] theorem logRead_y2 (s : State) (v : Word) : (s.logRead v).y2 = s.y2 := rfl
@[simp] theorem logRead_y3 (s : State) (v : Word) : (s.logRead v).y3 = s.y3 := rfl
@[simp] theorem logRead_ebit (s : State) (v : Word) : (s.logRead v).ebit = s.ebit := rfl
@[simp] theorem logRead_filt (s : State) (v : Word) : (s.logRead v).filt = s.filt := rfl
@[simp] theorem logRead_status (s : State) (v : Word) : (s.logRead v).status = s.status := rfl
@[simp] theorem logRead_approx (s : State) (v : Word) : (s.logRead v).approx = s.approx := rfl
@[simp] theorem logRead_port (s : State) (v : Word) : (s.logRead v).port = s.port := rfl
@[simp] theorem logRead_reads (s : State) (v : Word) : (s.logRead v).reads = s.reads ++ [v] := rfl

/-! ### setYs -/

@[simp] theorem setYs_pl (s : State) (y : RoundOutputs) : (s.setYs y).pl = s.pl := rfl
@[simp] theorem setYs_pr (s : State) (y : RoundOutputs) : (s.setYs y).pr = s.pr := rfl
@[simp] theorem setYs_cl (s : State) (y : RoundOutputs) : (s.setYs y).cl = s.cl := rfl
@[simp] theorem setYs_cr (s : State) (y : RoundOutputs) : (s.setYs y).cr = s.cr := rfl
@[simp] theorem setYs_k0 (s : State) (y : RoundOutputs) : (s.setYs y).k0 = s.k0 := rfl
@[simp] theorem setYs_k1 (s : State) (y : RoundOutputs) : (s.setYs y).k1 = s.k1 := rfl
@[simp] theorem setYs_k2 (s : State) (y : RoundOutputs) : (s.setYs y).k2 = s.k2 := rfl
@[simp] theorem setYs_k3 (s : State) (y : RoundOutputs) : (s.setYs y).k3 = s.k3 := rfl
@[simp] theorem setYs_k4 (s : State) (y : RoundOutputs) : (s.setYs y).k4 = s.k4 := rfl
@[simp] theorem setYs_k5 (s : State) (y : RoundOutputs) : (s.setYs y).k5 = s.k5 := rfl
@[simp] theorem setYs_cand (s : State) (y : RoundOutputs) : (s.setYs y).cand = s.cand := rfl
@[simp] theorem setYs_ink (s : State) (y : RoundOutputs) : (s.setYs y).ink = s.ink := rfl
@[simp] theorem setYs_x (s : State) (y : RoundOutputs) : (s.setYs y).x = s.x := rfl
@[simp] theorem setYs_t (s : State) (y : RoundOutputs) : (s.setYs y).t = s.t := rfl
@[simp] theorem setYs_dl (s : State) (y : RoundOutputs) : (s.setYs y).dl = s.dl := rfl
@[simp] theorem setYs_dr (s : State) (y : RoundOutputs) : (s.setYs y).dr = s.dr := rfl
@[simp] theorem setYs_y0 (s : State) (y : RoundOutputs) : (s.setYs y).y0 = y.y0 := rfl
@[simp] theorem setYs_y1 (s : State) (y : RoundOutputs) : (s.setYs y).y1 = y.y1 := rfl
@[simp] theorem setYs_y2 (s : State) (y : RoundOutputs) : (s.setYs y).y2 = y.y2 := rfl
@[simp] theorem setYs_y3 (s : State) (y : RoundOutputs) : (s.setYs y).y3 = y.y3 := rfl
@[simp] theorem setYs_ebit (s : State) (y : RoundOutputs) : (s.setYs y).ebit = s.ebit := rfl
@[simp] theorem setYs_filt (s : State) (y : RoundOutputs) : (s.setYs y).filt = s.filt := rfl
@[simp] theorem setYs_status (s : State) (y : RoundOutputs) : (s.setYs y).status = s.status := rfl
@[simp] theorem setYs_approx (s : State) (y : RoundOutputs) : (s.setYs y).approx = s.approx := rfl
@[simp] theorem setYs_port (s : State) (y : RoundOutputs) : (s.setYs y).port = s.port := rfl
@[simp] theorem setYs_reads (s : State) (y : RoundOutputs) : (s.setYs y).reads = s.reads := rfl

/-! ### decryptStep -/

@[simp] theorem decryptStep_pl (s : State) : s.decryptStep.pl = s.pl := rfl
@[simp] theorem decryptStep_pr (s : State) : s.decryptStep.pr = s.pr := rfl
@[simp] theorem decryptStep_cl (s : State) : s.decryptStep.cl = s.cl := rfl
@[simp] theorem decryptStep_cr (s : State) : s.decryptStep.cr = s.cr := rfl
@[simp] theorem decryptStep_k0 (s : State) : s.decryptStep.k0 = s.k0 := rfl
@[simp] theorem decryptStep_k1 (s : State) : s.decryptStep.k1 = s.k1 := rfl
@[simp] theorem decryptStep_k2 (s : State) : s.decryptStep.k2 = s.k2 := rfl
@[simp] theorem decryptStep_k3 (s : State) : s.decryptStep.k3 = s.k3 := rfl
@[simp] theorem decryptStep_k4 (s : State) : s.decryptStep.k4 = s.k4 := rfl
@[simp] theorem decryptStep_k5 (s : State) : s.decryptStep.k5 = s.k5 := rfl
@[simp] theorem decryptStep_cand (s : State) : s.decryptStep.cand = s.cand := rfl
@[simp] theorem decryptStep_ink (s : State) : s.decryptStep.ink = s.ink := rfl
@[simp] theorem decryptStep_x (s : State) : s.decryptStep.x = s.x := rfl
@[simp] theorem decryptStep_t (s : State) : s.decryptStep.t = s.t := rfl
@[simp] theorem decryptStep_dl (s : State) : s.decryptStep.dl = s.decrypted.left := rfl
@[simp] theorem decryptStep_dr (s : State) : s.decryptStep.dr = s.decrypted.right := rfl
@[simp] theorem decryptStep_y0 (s : State) : s.decryptStep.y0 = s.y0 := rfl
@[simp] theorem decryptStep_y1 (s : State) : s.decryptStep.y1 = s.y1 := rfl
@[simp] theorem decryptStep_y2 (s : State) : s.decryptStep.y2 = s.y2 := rfl
@[simp] theorem decryptStep_y3 (s : State) : s.decryptStep.y3 = s.y3 := rfl
@[simp] theorem decryptStep_ebit (s : State) : s.decryptStep.ebit = s.ebit := rfl
@[simp] theorem decryptStep_filt (s : State) : s.decryptStep.filt = s.filt.recordMatch s.decryptMatches := rfl
@[simp] theorem decryptStep_status (s : State) : s.decryptStep.status = s.status := rfl
@[simp] theorem decryptStep_approx (s : State) : s.decryptStep.approx = s.approx := rfl
@[simp] theorem decryptStep_port (s : State) : s.decryptStep.port = s.port := rfl
@[simp] theorem decryptStep_reads (s : State) : s.decryptStep.reads = s.reads := rfl

/-! ### platformReset -/

@[simp] theorem platformReset_pl (s : State) : s.platformReset.pl = 0 := rfl
@[simp] theorem platformReset_pr (s : State) : s.platformReset.pr = 0 := rfl
@[simp] theorem platformReset_cl (s : State) : s.platformReset.cl = 0 := rfl
@[simp] theorem platformReset_cr (s : State) : s.platformReset.cr = 0 := rfl
@[simp] theorem platformReset_k0 (s : State) : s.platformReset.k0 = 0 := rfl
@[simp] theorem platformReset_k1 (s : State) : s.platformReset.k1 = 0 := rfl
@[simp] theorem platformReset_k2 (s : State) : s.platformReset.k2 = 0 := rfl
@[simp] theorem platformReset_k3 (s : State) : s.platformReset.k3 = 0 := rfl
@[simp] theorem platformReset_k4 (s : State) : s.platformReset.k4 = 0 := rfl
@[simp] theorem platformReset_k5 (s : State) : s.platformReset.k5 = 0 := rfl
@[simp] theorem platformReset_cand (s : State) : s.platformReset.cand = 0 := rfl
@[simp] theorem platformReset_ink (s : State) : s.platformReset.ink = 0 := rfl
@[simp] theorem platformReset_x (s : State) : s.platformReset.x = 0 := rfl
@[simp] theorem platformReset_t (s : State) : s.platformReset.t = 0 := rfl
@[simp] theorem platformReset_dl (s : State) : s.platformReset.dl = 0 := rfl
@[simp] theorem platformReset_dr (s : State) : s.platformReset.dr = 0 := rfl
@[simp] theorem platformReset_y0 (s : State) : s.platformReset.y0 = 0 := rfl
@[simp] theorem platformReset_y1 (s : State) : s.platformReset.y1 = 0 := rfl
@[simp] theorem platformReset_y2 (s : State) : s.platformReset.y2 = 0 := rfl
@[simp] theorem platformReset_y3 (s : State) : s.platformReset.y3 = 0 := rfl
@[simp] theorem platformReset_ebit (s : State) : s.platformReset.ebit = 0 := rfl
@[simp] theorem platformReset_filt (s : State) : s.platformReset.filt = Filt.cleared := rfl
@[simp] theorem platformReset_status (s : State) : s.platformReset.status = { ill := false, herr := false } := rfl
@[simp] theorem platformReset_approx (s : State) : s.platformReset.approx = s.approx := rfl
@[simp] theorem platformReset_port (s : State) : s.platformReset.port = s.port := rfl
@[simp] theorem platformReset_reads (s : State) : s.platformReset.reads = s.reads := rfl

/-! ### set, on the fields that are no data register -/

@[simp] theorem set_ebit (s : State) (r : DataReg) (v : Word) : (s.set r v).ebit = s.ebit := by
  cases r <;> rfl
@[simp] theorem set_filt (s : State) (r : DataReg) (v : Word) : (s.set r v).filt = s.filt := by
  cases r <;> rfl
@[simp] theorem set_status (s : State) (r : DataReg) (v : Word) : (s.set r v).status = s.status := by
  cases r <;> rfl
@[simp] theorem set_approx (s : State) (r : DataReg) (v : Word) : (s.set r v).approx = s.approx := by
  cases r <;> rfl
@[simp] theorem set_port (s : State) (r : DataReg) (v : Word) : (s.set r v).port = s.port := by
  cases r <;> rfl
@[simp] theorem set_reads (s : State) (r : DataReg) (v : Word) : (s.set r v).reads = s.reads := by
  cases r <;> rfl

/-! ### get and set -/

/-- A data register reads as it was last written. -/
@[simp] theorem get_set_same (s : State) (r : DataReg) (v : Word) : (s.set r v).get r = v := by
  cases r <;> rfl

/-- Writing a data register leaves every other one alone. -/
theorem get_set_ne (s : State) (r r' : DataReg) (v : Word) (h : r' ≠ r) :
    (s.set r v).get r' = s.get r' := by
  cases r <;> cases r' <;> first | rfl | exact absurd rfl h

/-- Every data register is 0 after the reset event. -/
@[simp] theorem get_platformReset (s : State) (r : DataReg) : s.platformReset.get r = 0 := by
  cases r <;> rfl

@[simp] theorem get_raiseIll (s : State) (r : DataReg) : s.raiseIll.get r = s.get r := by
  cases r <;> rfl
@[simp] theorem get_raiseHerr (s : State) (r : DataReg) : s.raiseHerr.get r = s.get r := by
  cases r <;> rfl
@[simp] theorem get_setEbit (s : State) (r : DataReg) (b : Bool) : (s.setEbit b).get r = s.get r := by
  cases r <;> rfl
@[simp] theorem get_setFilt (s : State) (r : DataReg) (f : Filt) : (s.setFilt f).get r = s.get r := by
  cases r <;> rfl
@[simp] theorem get_setStatus (s : State) (r : DataReg) (st : Status) : (s.setStatus st).get r = s.get r := by
  cases r <;> rfl
@[simp] theorem get_logRead (s : State) (r : DataReg) (v : Word) : (s.logRead v).get r = s.get r := by
  cases r <;> rfl

/-! ### withFetchWord -/

@[simp] theorem withFetchWord_port (s : State) (nbits w : Nat) :
    (s.withFetchWord nbits w).port =
      commandMove (BitVec.ofNat 32 (w % 2 ^ nbits)) :: s.port := rfl

/-- Taking the placed word off the port again gives the state back. -/
@[simp] theorem withFetchWord_eraseHead (s : State) (nbits w : Nat) :
    { s.withFetchWord nbits w with port := s.port } = s := rfl

end Sys2Proof.Machine
end

