-- ==== Sys2Proof/Laws/Ops.lean ====
section
/-! SUPPORT. What each shared operation can do, said once: the effect of a command, a window read, a
window write, a move and a step (spec/20_memory.md R63 to R66, spec/70_reset_and_hazards.md R297). -/

namespace Sys2Proof.Machine

/-! ### Commands -/

/-- The state a command leads to. -/
def commandEffect (i : Instr) (s : State) : State :=
  match i with
  | .nop => s
  | .xform => { s with t := F s.x }
  | .decrypt => s.decryptStep
  | .decryptA => s.decryptStep.setFilt (s.decryptStep.filt.validate s.decryptMatches)
  | .eval stage v => s.setEbit (s.evaluator stage v)
  | .evalA stage v =>
    (s.setEbit (s.evaluator stage v)).setFilt (s.filt.accumulate (s.evaluator stage v))
  | .buildi n => { s with cand := buildInner n, ink := buildInner n }
  | .buildo n => { s with cand := buildOuter n s.ink }
  | .kset stage => s.set (subkeyReg stage) s.cand
  | .ygen => s.setYs s.roundOutputs
  | .kderive =>
    { s.setYs s.roundOutputs with
      k4 := k4Of s.pl s.pr s.cl s.roundOutputs
      k5 := k5Of s.pr s.cr s.roundOutputs }
  | .fclr => s.setFilt Filt.cleared

/-- Every command answers its effect. -/
theorem exec_eq_effect (i : Instr) (s : State) : exec i s = .next (commandEffect i s) := by
  cases i <;> rfl

/-- If a command answers a next state, that state is its effect. -/
theorem exec_next {i : Instr} {s t : State} (h : exec i s = .next t) : t = commandEffect i s := by
  rw [exec_eq_effect] at h
  injection h with h
  exact h.symm

/-- No command touches STATUS. -/
@[simp] theorem commandEffect_status (i : Instr) (s : State) :
    (commandEffect i s).status = s.status := by
  cases i <;> simp [commandEffect]

/-- No command touches APPROX. -/
@[simp] theorem commandEffect_approx (i : Instr) (s : State) :
    (commandEffect i s).approx = s.approx := by
  cases i <;> simp [commandEffect]

/-- No command touches the moves waiting at the port. -/
@[simp] theorem commandEffect_port (i : Instr) (s : State) :
    (commandEffect i s).port = s.port := by
  cases i <;> simp [commandEffect]

/-- No command touches the values read. -/
@[simp] theorem commandEffect_reads (i : Instr) (s : State) :
    (commandEffect i s).reads = s.reads := by
  cases i <;> simp [commandEffect]

/-! ### The window's addressing -/

/-- An offset is aligned when it is a multiple of 4. -/
theorem isAligned_iff (a : BitVec 7) : isAligned a = true ↔ a.toNat % 4 = 0 := by
  revert a; decide

theorem indexOf_toNat (a : BitVec 7) : (indexOf a).toNat = a.toNat / 4 := by
  revert a; decide

@[simp] theorem isAligned_regOffset (r : WindowReg) : isAligned (regOffset r) = true := by
  cases r with
  | data r => cases r <;> rfl
  | _ => rfl

@[simp] theorem slotAt_indexOf_regOffset (r : WindowReg) :
    slotAt (indexOf (regOffset r)) = some r := by
  cases r with
  | data r => cases r <;> rfl
  | _ => rfl

/-- The only index of a named register is its own. -/
theorem slotAt_eq_some {i : BitVec 5} {r : WindowReg} (h : slotAt i = some r) : i = regIndex r := by
  have all : ∀ i : BitVec 5, (slotAt i).all (fun r => i == regIndex r) = true := by decide
  have hi := all i
  rw [h] at hi
  simpa using hi

/-- Reserved indices are 24 to 30. -/
theorem slotAt_eq_none_iff (i : BitVec 5) : slotAt i = none ↔ 24 ≤ i.toNat ∧ i.toNat ≤ 30 := by
  revert i; decide

/-! ### Reads -/

theorem hostRead_misaligned {a : BitVec 7} (s : State) (h : isAligned a = false) :
    hostRead a s = (0, s.raiseHerr) := by
  simp [hostRead, h]

theorem hostRead_reserved {a : BitVec 7} (s : State) (h : slotAt (indexOf a) = none) :
    hostRead a s = (0, s.raiseHerr) := by
  simp [hostRead, h]

/-- An aligned read of CMD returns 0 and raises HERR. -/
theorem hostRead_cmd (s : State) : hostRead (regOffset .cmd) s = (0, s.raiseHerr) := rfl

/-- A read of a register other than CMD returns its value and changes nothing. -/
theorem hostRead_reg (s : State) {r : WindowReg} (h : r ≠ .cmd) :
    hostRead (regOffset r) s = (s.readReg r, s) := by
  cases r with
  | cmd => exact absurd rfl h
  | data r => cases r <;> rfl
  | _ => rfl

/-- A read changes nothing, or raises HERR and returns 0. -/
theorem hostRead_cases (a : BitVec 7) (s : State) :
    (hostRead a s).2 = s ∨ hostRead a s = (0, s.raiseHerr) := by
  unfold hostRead
  split
  · exact Or.inr rfl
  · split
    · exact Or.inr rfl
    · exact Or.inr rfl
    · exact Or.inl rfl

/-! ### Writes -/

/-- The state a command word written to CMD leads to. -/
def wordEffect (w : Word) (s : State) : State :=
  match decode w with
  | .ok i => commandEffect i s
  | .error _ => s.raiseIll

theorem runCommand_legal {w : Word} {i : Instr} (s : State) (h : decode w = .ok i) :
    runCommand w s = exec i s := by
  simp [runCommand, h]

theorem runCommand_illegal {w : Word} {e : Illegal} (s : State) (h : decode w = .error e) :
    runCommand w s = .next s.raiseIll := by
  simp [runCommand, h]

theorem runCommand_eq_effect (w : Word) (s : State) : runCommand w s = .next (wordEffect w s) := by
  unfold runCommand wordEffect
  cases decode w with
  | ok i => exact exec_eq_effect i s
  | error e => rfl

@[simp] theorem wordEffect_port (w : Word) (s : State) : (wordEffect w s).port = s.port := by
  unfold wordEffect
  split <;> simp

theorem hostWrite_misaligned {a : BitVec 7} (v : Word) (s : State) (h : isAligned a = false) :
    hostWrite a v s = .next s.raiseHerr := by
  simp [hostWrite, h]

theorem hostWrite_cmd (v : Word) (s : State) : hostWrite (regOffset .cmd) v s = runCommand v s :=
  rfl

/-- A write of a register other than CMD. -/
theorem hostWrite_reg (v : Word) (s : State) {r : WindowReg} (h : r ≠ .cmd) :
    hostWrite (regOffset r) v s = .next (s.writeReg r v) := by
  cases r with
  | cmd => exact absurd rfl h
  | data r => cases r <;> rfl
  | _ => rfl

/-- The state a window write leads to. -/
def writeEffect (a : BitVec 7) (v : Word) (s : State) : State :=
  if isAligned a = false then s.raiseHerr
  else
    match slotAt (indexOf a) with
    | none => s.raiseHerr
    | some .cmd => wordEffect v s
    | some r => s.writeReg r v

theorem hostWrite_eq_effect (a : BitVec 7) (v : Word) (s : State) :
    hostWrite a v s = .next (writeEffect a v s) := by
  unfold hostWrite writeEffect
  split
  · rfl
  · cases slotAt (indexOf a) with
    | none => rfl
    | some r => cases r <;> first | rfl | exact runCommand_eq_effect v s

/-- A window write raises HERR, runs a command word, or writes a register. -/
theorem writeEffect_cases (a : BitVec 7) (v : Word) (s : State) :
    writeEffect a v s = s.raiseHerr ∨
      (a = 0x7C ∧ writeEffect a v s = wordEffect v s) ∨
      ∃ r : WindowReg, r ≠ .cmd ∧ a = regOffset r ∧ writeEffect a v s = s.writeReg r v := by
  by_cases hal : isAligned a = false
  · left; simp [writeEffect, hal]
  have back : ∀ a : BitVec 7, isAligned a = true →
      (slotAt (indexOf a)).all (fun r => a == regOffset r) = true := by decide
  have hb := back a (by simpa using hal)
  cases hs : slotAt (indexOf a) with
  | none => left; simp [writeEffect, hs]
  | some r =>
    rw [hs] at hb
    have ha : a = regOffset r := by simpa using hb
    by_cases hr : r = .cmd
    · subst hr
      exact Or.inr (Or.inl ⟨ha, by simp [writeEffect, hal, hs]⟩)
    · refine Or.inr (Or.inr ⟨r, hr, ha, ?_⟩)
      unfold writeEffect
      rw [if_neg hal, hs]
      cases r <;> first | rfl | exact absurd rfl hr

/-! ### Moves and steps -/

/-- The state a move leads to. -/
def moveEffect (m : HostMove) (s : State) : State :=
  match m with
  | .read a => (hostRead a s).2.logRead (hostRead a s).1
  | .write a v => writeEffect a v s
  | .reset => s.platformReset

theorem accept_eq_effect (m : HostMove) (s : State) : accept m s = .next (moveEffect m s) := by
  cases m with
  | read a => rfl
  | write a v => exact hostWrite_eq_effect a v s
  | reset => rfl

/-- No move touches the moves that wait behind it. -/
@[simp] theorem moveEffect_port (m : HostMove) (s : State) : (moveEffect m s).port = s.port := by
  cases m with
  | read a =>
    rcases hostRead_cases a s with h | h <;> simp [moveEffect, h]
  | write a v =>
    rcases writeEffect_cases a v s with h | ⟨_, h⟩ | ⟨r, _, _, h⟩
    · simp [moveEffect, h]
    · simp [moveEffect, h]
    · cases r <;> simp [moveEffect, h, State.writeReg]
  | reset => rfl

/-- A move does to a state with other moves waiting what it does to the state. -/
theorem moveEffect_withPort (m : HostMove) (s : State) (waiting : List HostMove) :
    moveEffect m { s with port := waiting } = { moveEffect m s with port := waiting } := by
  cases m with
  | reset => rfl
  | read a =>
    simp only [moveEffect, hostRead]
    split
    · rfl
    · cases slotAt (indexOf a) with
      | none => rfl
      | some r => cases r <;> rfl
  | write a v =>
    simp only [moveEffect, writeEffect]
    split
    · rfl
    · cases slotAt (indexOf a) with
      | none => rfl
      | some r =>
        cases r with
        | data r => cases r <;> rfl
        | cmd =>
          simp only [wordEffect]
          cases decode v with
          | error e => rfl
          | ok i =>
            cases i with
            | kset stage => cases stage <;> rfl
            | _ => rfl
        | _ => rfl

/-- The state a step leads to. -/
def stepEffect (s : State) : State :=
  match s.port with
  | [] => s
  | m :: rest => moveEffect m { s with port := rest }

theorem step_eq_effect (s : State) : step s = .next (stepEffect s) := by
  unfold step stepPort stepEffect
  cases s.port with
  | nil => rfl
  | cons m rest => exact accept_eq_effect m _

/-- If a step answers a next state, nothing was waiting and nothing changed, or the next move was
accepted. -/
theorem step_cases {s t : State} (h : step s = .next t) :
    (s.port = [] ∧ t = s) ∨
      ∃ m rest, s.port = m :: rest ∧ t = moveEffect m { s with port := rest } := by
  rw [step_eq_effect] at h
  injection h with h
  subst h
  unfold stepEffect
  cases hp : s.port with
  | nil => exact Or.inl ⟨rfl, rfl⟩
  | cons m rest => exact Or.inr ⟨m, rest, rfl, rfl⟩

end Sys2Proof.Machine
end

