-- ==== Sys2Proof/Laws/PerInstr.lean ====
section
/-! SUPPORT. For every command: its word matches its own row of spec/opcode_table.json, whose match
and mask are stricter than those of spec/30_encoding.md R92 where two rows split an opcode by ACC. -/

namespace Sys2Proof.Laws.EncodesInRow

/-- The match and mask of the command's row in spec/opcode_table.json. -/
def tableRow : Instr → OpcodeRow
  | .nop => ⟨0x00000000, 0xFFFFFFFF⟩
  | .xform => ⟨0x10000000, 0xFFFFFFFF⟩
  | .decrypt => ⟨0x20000000, 0xFFFFFFFF⟩
  | .decryptA => ⟨0x21000000, 0xFFFFFFFF⟩
  | .eval _ _ => ⟨0x30000000, 0xF1FFFFFF⟩
  | .evalA _ _ => ⟨0x31000000, 0xF1FFFFFF⟩
  | .buildi _ => ⟨0x40000000, 0xFFFFF000⟩
  | .buildo _ => ⟨0x50000000, 0xFFF00000⟩
  | .kset _ => ⟨0x60000000, 0xF3FFFFFF⟩
  | .ygen => ⟨0x70000000, 0xFFFFFFFF⟩
  | .kderive => ⟨0x80000000, 0xFFFFFFFF⟩
  | .fclr => ⟨0x90000000, 0xFFFFFFFF⟩

/-- The command's word matches its row. -/
def Statement (i : Instr) : Prop := (tableRow i).accepts (encode i) = true

theorem nop : Statement .nop := by unfold Statement; decide

theorem xform : Statement .xform := by unfold Statement; decide

theorem decrypt : Statement .decrypt := by unfold Statement; decide

theorem decryptA : Statement .decryptA := by unfold Statement; decide

theorem eval (s : Stage) (v : Variant) : Statement (.eval s v) := by
  unfold Statement; cases s <;> cases v <;> decide

theorem evalA (s : Stage) (v : Variant) : Statement (.evalA s v) := by
  unfold Statement; cases s <;> cases v <;> decide

/-- A word of BUILDI or BUILDO keeps its row's fixed bits, whatever the index. -/
theorem index_bits (op : BitVec 4) (imm : BitVec 20) (mask : Word) (h : ∀ i, i < 20 →
    mask.getLsbD i = true → imm.getLsbD i = false) :
    assembleWord op 0 0 0 imm &&& mask = assembleWord op 0 0 0 0 &&& mask := by
  apply BitVec.eq_of_getLsbD_eq
  intro i hi
  simp only [BitVec.getLsbD_and, getLsbD_assembleWord]
  by_cases h20 : i < 20
  · have := h i h20
    cases hm : mask.getLsbD i
    · simp
    · rw [if_pos h20, if_pos h20, this hm]
      simp
  · simp [h20]

theorem buildi (n : BitVec 12) : Statement (.buildi n) := by
  unfold Statement OpcodeRow.accepts
  have e := index_bits 0x4 (n.setWidth 20) 0xFFFFF000 (by
    intro i hi hm
    have low : ∀ i, i < 12 → (0xFFFFF000 : Word).getLsbD i = false := by decide
    have h12 : ¬ i < 12 := fun hlt => by rw [low i hlt] at hm; cases hm
    simp only [BitVec.getLsbD_setWidth]
    rw [BitVec.getLsbD_of_ge n i (by omega)]
    simp)
  simp only [encode, tableRow, e]
  decide

theorem buildo (n : BitVec 20) : Statement (.buildo n) := by
  unfold Statement OpcodeRow.accepts
  have e := index_bits 0x5 n 0xFFF00000 (by
    intro i hi hm
    have low : ∀ i, i < 20 → (0xFFF00000 : Word).getLsbD i = false := by decide
    rw [low i hi] at hm
    cases hm)
  simp only [encode, tableRow, e]
  decide

theorem kset (s : Stage) : Statement (.kset s) := by
  unfold Statement; cases s <;> decide

theorem ygen : Statement .ygen := by unfold Statement; decide

theorem kderive : Statement .kderive := by unfold Statement; decide

theorem fclr : Statement .fclr := by unfold Statement; decide

end Sys2Proof.Laws.EncodesInRow
end

