-- ==== Sys2Proof/Laws/Run.lean ====
section
/-! SUPPORT. How a run unfolds, one accepted move at a time (spec/70_reset_and_hazards.md R297). -/

namespace Sys2Proof

open Sys2Proof.Machine

/-- The empty run. -/
theorem runMoves_nil (s : State) : runMoves [] s = .next { s with port := [] } := rfl

/-- One more step of a run of the core. -/
theorem run_succ (k : Nat) {s t : State} (h : core.step s = .next t) :
    Host.Core.run core (k + 1) s = Host.Core.run core k t := by
  simp only [Host.Core.run, h]

/-- A run accepts its first move and goes on with the rest. -/
theorem runMoves_cons (m : HostMove) (ms : List HostMove) (s : State) :
    runMoves (m :: ms) s = runMoves ms (moveEffect m { s with port := ms }) := by
  have hstep : core.step { s with port := m :: ms } =
      .next (moveEffect m { s with port := ms }) := accept_eq_effect m { s with port := ms }
  have hport : moveEffect m { s with port := ms } =
      { moveEffect m { s with port := ms } with port := ms } := by
    have h := moveEffect_port m { s with port := ms }
    revert h
    generalize moveEffect m { s with port := ms } = u
    intro h
    cases u
    simp only at h
    subst h
    rfl
  unfold runMoves
  rw [← hport]
  exact run_succ ms.length hstep

end Sys2Proof
end

