-- ==== Sys2Proof/Machine/Assembler.lean ====
section
/-! DEFINITION. The assembler text of commands and host instructions (spec/30_encoding.md R102, R103):
one line of characters gives one host instruction, nothing, or an assembly error (log entry 10). -/

namespace Sys2Proof.Machine

/-- What a line of assembler text stands for. -/
inductive AsmLine where
  /-- Only white space and a comment. -/
  | blank
  /-- A host instruction or a command. -/
  | op (o : HostOp)
  /-- "An operand out of range is an assembly error, not a word" (30_encoding.md R102). -/
  | asmError
deriving DecidableEq, Repr

/-- Mnemonics and operands are case-insensitive (30_encoding.md R102). -/
def upperChar (c : Char) : Char :=
  if 'a'.toNat ≤ c.toNat ∧ c.toNat ≤ 'z'.toNat then Char.ofNat (c.toNat - 32) else c

/-- What stands between two operands (log entry 10). -/
def isSeparator (c : Char) : Bool := c == ' ' || c == ',' || c == '\t'

/-- A finished token, if it has a character; `cur` is reversed. -/
def flushToken (cur : List Char) : List (List Char) := if cur.isEmpty then [] else [cur.reverse]

def splitTokens : List Char → List Char → List (List Char)
  | [], cur => flushToken cur
  | c :: cs, cur =>
    if isSeparator c then flushToken cur ++ splitTokens cs []
    else splitTokens cs (upperChar c :: cur)

/-- The upper-case tokens of a line; "a comment starts with `;`" (30_encoding.md R102). -/
def lineTokens (line : List Char) : List (List Char) :=
  splitTokens (line.takeWhile fun c => c != ';') []

/-- The value of a decimal digit, or of an upper-case hexadecimal one. -/
def digitValue (base : Nat) (c : Char) : Option Nat :=
  let d :=
    if '0'.toNat ≤ c.toNat ∧ c.toNat ≤ '9'.toNat then c.toNat - '0'.toNat
    else if 'A'.toNat ≤ c.toNat ∧ c.toNat ≤ 'F'.toNat then c.toNat - 'A'.toNat + 10
    else base
  if d < base then some d else none

def digitsValue (base : Nat) : List Char → Nat → Option Nat
  | [], acc => some acc
  | c :: cs, acc =>
    match digitValue base c with
    | some d => digitsValue base cs (acc * base + d)
    | none => none

/-- "A decimal or 0x-prefixed hexadecimal constant" (30_encoding.md R102). -/
def parseNumber : List Char → Option Nat
  | [] => none
  | ['0', 'X'] => none
  | '0' :: 'X' :: cs => digitsValue 16 cs 0
  | cs => digitsValue 10 cs 0

/-- A constant that fits the given width (30_encoding.md R102). -/
def parseConstant (width : Nat) (tok : List Char) : Option (BitVec width) :=
  match parseNumber tok with
  | some n => if n < 2 ^ width then some (BitVec.ofNat width n) else none
  | none => none

/-- `#n` (30_encoding.md R102). -/
def parseIndex (width : Nat) : List Char → Option (BitVec width)
  | '#' :: cs => parseConstant width cs
  | _ => none

/-- `Ks` is one of K0, K1, K2, K3 (30_encoding.md R102). -/
def parseStage : List Char → Option Stage
  | ['K', '0'] => some .k0
  | ['K', '1'] => some .k1
  | ['K', '2'] => some .k2
  | ['K', '3'] => some .k3
  | _ => none

/-- `inner` or `outer` (30_encoding.md R102). -/
def parseVariant (tok : List Char) : Option Variant :=
  if tok = ['I', 'N', 'N', 'E', 'R'] then some .inner
  else if tok = ['O', 'U', 'T', 'E', 'R'] then some .outer
  else none

/-- The register names of 10_state.md R30. -/
def regNames : List (List Char × WindowReg) :=
  [ (['P', 'L'], .data .pl), (['P', 'R'], .data .pr), (['C', 'L'], .data .cl),
    (['C', 'R'], .data .cr), (['K', '0'], .data .k0), (['K', '1'], .data .k1),
    (['K', '2'], .data .k2), (['K', '3'], .data .k3), (['K', '4'], .data .k4),
    (['K', '5'], .data .k5), (['C', 'A', 'N', 'D'], .data .cand), (['I', 'N', 'K'], .data .ink),
    (['X'], .data .x), (['T'], .data .t), (['D', 'L'], .data .dl), (['D', 'R'], .data .dr),
    (['Y', '0'], .data .y0), (['Y', '1'], .data .y1), (['Y', '2'], .data .y2),
    (['Y', '3'], .data .y3), (['E', 'B', 'I', 'T'], .ebit), (['F', 'I', 'L', 'T'], .filt),
    (['S', 'T', 'A', 'T', 'U', 'S'], .status), (['I', 'D'], .id), (['C', 'M', 'D'], .cmd) ]

def parseReg (tok : List Char) : Option WindowReg := regNames.lookup tok

/-- The words of an operation that takes only Word32 constants; none if one is not a constant. -/
def parseWords : List (List Char) → Option (List Word)
  | [] => some []
  | tok :: toks =>
    match parseConstant 32 tok, parseWords toks with
    | some v, some vs => some (v :: vs)
    | _, _ => none

/-- The mnemonics with no operand (30_encoding.md R102, R103). -/
def plainOps : List (List Char × HostOp) :=
  [ (['N', 'O', 'P'], .command .nop),
    (['X', 'F', 'O', 'R', 'M'], .command .xform),
    (['D', 'E', 'C', 'R', 'Y', 'P', 'T'], .command .decrypt),
    (['D', 'E', 'C', 'R', 'Y', 'P', 'T', '.', 'A'], .command .decryptA),
    (['Y', 'G', 'E', 'N'], .command .ygen),
    (['K', 'D', 'E', 'R', 'I', 'V', 'E'], .command .kderive),
    (['F', 'C', 'L', 'R'], .command .fclr),
    (['C', 'L', 'R', 'E', 'R', 'R'], .clrerr) ]

/-- A mnemonic followed by one operand (30_encoding.md R102, R103). -/
def parseOne (name a : List Char) : Option HostOp :=
  if name = ['B', 'U', 'I', 'L', 'D', 'I'] then (parseIndex 12 a).map fun n => .command (.buildi n)
  else if name = ['B', 'U', 'I', 'L', 'D', 'O'] then
    (parseIndex 20 a).map fun n => .command (.buildo n)
  else if name = ['K', 'S', 'E', 'T'] then (parseStage a).map fun s => .command (.kset s)
  else if name = ['R', 'D'] then (parseReg a).map .rd
  else if name = ['C', 'M', 'D'] then (parseConstant 32 a).map .cmd
  else none

/-- A mnemonic followed by two operands (30_encoding.md R102, R103). -/
def parseTwo (name a b : List Char) : Option HostOp :=
  if name = ['E', 'V', 'A', 'L'] then
    match parseStage a, parseVariant b with
    | some s, some v => some (.command (.eval s v))
    | _, _ => none
  else if name = ['E', 'V', 'A', 'L', '.', 'A'] then
    match parseStage a, parseVariant b with
    | some s, some v => some (.command (.evalA s v))
    | _, _ => none
  else if name = ['W', 'R'] then
    match parseReg a, parseConstant 32 b with
    | some r, some v => some (.wr r v)
    | _, _ => none
  else none

/-- LDPAIR and LDKEYS (30_encoding.md R103). -/
def parseMany (name : List Char) (args : List (List Char)) : Option HostOp :=
  match parseWords args with
  | some [a, b, c, d] => if name = ['L', 'D', 'P', 'A', 'I', 'R'] then some (.ldpair ⟨a, b, c, d⟩) else none
  | some [a, b, c, d, e, f] =>
    if name = ['L', 'D', 'K', 'E', 'Y', 'S'] then some (.ldkeys ⟨a, b, c, d, e, f⟩) else none
  | _ => none

/-- One line of assembler text (30_encoding.md R102, R103). -/
def assembleLine (line : List Char) : AsmLine :=
  let parsed : Option HostOp :=
    match lineTokens line with
    | [] => none
    | [name] => plainOps.lookup name
    | [name, a] => parseOne name a
    | [name, a, b] => parseTwo name a b
    | name :: args => parseMany name args
  match lineTokens line, parsed with
  | [], _ => .blank
  | _ :: _, some o => .op o
  | _ :: _, none => .asmError

/-- A program text, line by line; none if a line does not assemble. -/
def assembleProgram : List (List Char) → Option (List HostOp)
  | [] => some []
  | line :: lines =>
    match assembleLine line, assembleProgram lines with
    | .blank, some ops => some ops
    | .op o, some ops => some (o :: ops)
    | _, _ => none

end Sys2Proof.Machine
end

