-- ==== Sys2Proof/Tests/Slice0.lean ====
section
/-! SUPPORT. Tests: decoding of words written out from spec/30_encoding.md, the refusals of the
well-formedness check, vectors of spec/95_test_vectors.md on single steps, and for each statement
with hypotheses a concrete state and operands that meet them. -/

namespace Sys2Proof.Tests

open Sys2Proof Sys2Proof.Machine Sys2Proof.Claims

/-- The state a result answers; the reset state if it stops. -/
def after : Result → State
  | .next s => s
  | .fault _ => State.reset
  | .refused _ => State.reset

/-- The state after one step on a move, from a state with nothing else waiting. -/
def stepOn (m : HostMove) (s : State) : State := after (step { s with port := [m] })

/-- The state after one step on a command word. -/
def stepWord (w : Word) (s : State) : State := stepOn (.write 0x7C w) s

/-- Pair V1 of spec/95_test_vectors.md 2.2 under the test key. -/
def v1 : State := loaded ⟨0, 0, 0xF4C3198E, 0x39073A30⟩ testKey

/-- Pair V2 of spec/95_test_vectors.md 2.2 under the test key. -/
def v2 : State := loaded ⟨0x01234567, 0x89ABCDEF, 0x915FFA15, 0x667E794D⟩ testKey

/-! ### Decoding, bit by bit from 30_encoding.md R91 and R92 -/

-- OP 0000, all else 0
theorem test_decode_nop : decode 0b00000000000000000000000000000000 = .ok .nop := rfl
-- OP 0001
theorem test_decode_xform : decode 0b00010000000000000000000000000000 = .ok .xform := rfl
-- OP 0010, ACC 0 and 1
theorem test_decode_decrypt : decode 0b00100000000000000000000000000000 = .ok .decrypt := rfl
theorem test_decode_decryptA : decode 0b00100001000000000000000000000000 = .ok .decryptA := rfl
-- OP 0011, STG 01, VAR 1, ACC 0; STG 10, VAR 0, ACC 1
theorem test_decode_eval : decode 0b00110110000000000000000000000000 = .ok (.eval .k1 .outer) := rfl
theorem test_decode_evalA : decode 0b00111001000000000000000000000000 = .ok (.evalA .k2 .inner) :=
  rfl
-- OP 0100, index 100010100010
theorem test_decode_buildi : decode 0b01000000000000000000100010100010 = .ok (.buildi 2210) := rfl
-- OP 0101, index 10001001111011110000
theorem test_decode_buildo : decode 0b01010000000010001001111011110000 = .ok (.buildo 0x89EF0) := rfl
-- OP 0110, STG 11
theorem test_decode_kset : decode 0b01101100000000000000000000000000 = .ok (.kset .k3) := rfl
-- OP 0111, 1000, 1001
theorem test_decode_ygen : decode 0b01110000000000000000000000000000 = .ok .ygen := rfl
theorem test_decode_kderive : decode 0b10000000000000000000000000000000 = .ok .kderive := rfl
theorem test_decode_fclr : decode 0b10010000000000000000000000000000 = .ok .fclr := rfl

/-! ### Ill-formed words, spec/95_test_vectors.md 2.8 -/

theorem test_refuses_reserved_op :
    wellFormedWord 0xA0000000 = false ∧ decode 0xA0000000 = .error .reservedOp ∧
    wellFormedWord 0xF0000000 = false ∧ decode 0xF0000000 = .error .reservedOp := by decide

theorem test_refuses_rsv :
    wellFormedWord 0x00100000 = false ∧ decode 0x00100000 = .error .rsvNonzero ∧
    wellFormedWord 0x50100000 = false ∧ decode 0x5FFFFFFF = .error .rsvNonzero := by decide

theorem test_refuses_nonzero_stg :
    wellFormedWord 0x84000000 = false ∧ decode 0x84000000 = .error .mustBeZero := by decide

theorem test_refuses_nonzero_var :
    wellFormedWord 0x62000000 = false ∧ decode 0x62000000 = .error .mustBeZero ∧
    wellFormedWord 0x22000000 = false ∧ decode 0x22000000 = .error .mustBeZero := by decide

theorem test_refuses_nonzero_acc :
    wellFormedWord 0x91000000 = false ∧ decode 0x91000000 = .error .mustBeZero ∧
    wellFormedWord 0x41000000 = false ∧ decode 0x41000000 = .error .mustBeZero := by decide

theorem test_refuses_nonzero_imm :
    wellFormedWord 0x00000001 = false ∧ decode 0x00000001 = .error .mustBeZero ∧
    wellFormedWord 0x30000001 = false ∧ decode 0x30000001 = .error .mustBeZero := by decide

theorem test_refuses_wide_inner_index :
    wellFormedWord 0x40001000 = false ∧ decode 0x40001000 = .error .mustBeZero ∧
    wellFormedWord 0x40000FFF = true ∧ decode 0x40000FFF = .ok (.buildi 4095) := by decide

/-! ### Commands, spec/95_test_vectors.md 2.1 to 2.7 -/

-- 2.1
theorem test_xform : (stepWord 0x10000000 { State.reset with x := 0xDEADBEEF }).t = 0xD717A146 := by
  decide +kernel

-- 2.2: MATCH becomes 1 and VOK is unchanged
theorem test_decrypt_match :
    (stepWord 0x20000000 v2).dl = 0x01234567 ∧ (stepWord 0x20000000 v2).dr = 0x89ABCDEF ∧
    (stepWord 0x20000000 v2).filt.toWord = 0x1C := by decide +kernel

-- 2.2: one wrong bit of K3; MATCH and VOK become 0
theorem test_decryptA_mismatch :
    (stepWord 0x21000000 { v2 with k3 := 0x76543211, filt := Filt.ofWord 0x1C }).dl = 0x0092A27E ∧
    (stepWord 0x21000000 { v2 with k3 := 0x76543211, filt := Filt.ofWord 0x1C }).filt.toWord =
      0x04 := by decide +kernel

-- 2.3
theorem test_eval_k1_outer :
    (stepWord 0x36000000 { v1 with cand := 0x89ABCDEF }).ebit = 1 ∧
    (stepWord 0x36000000 { v1 with cand := 0x89ABCDEF }).filt.toWord = 0x14 := by decide +kernel

-- 2.3: with FILT = 0x14 and a bit of 0, FILT becomes 0x15
theorem test_evalA_k3_outer :
    (stepWord 0x3F000000 { v1 with cand := 0x76543210 }).filt.toWord = 0x15 := by decide +kernel

-- 2.6, sequence B: SEEN = 1 and REF = 1, then a bit of 0 clears OK
theorem test_evalA_rejects :
    (stepWord 0x31000000 { v1 with cand := 0x01234567, filt := Filt.ofWord 0x17 }).filt.toWord =
      0x13 := by decide +kernel

-- 2.4
theorem test_buildi :
    (stepWord 0x40000FFF State.reset).cand = 0x003F3F00 ∧
    (stepWord 0x40000FFF State.reset).ink = 0x003F3F00 := by decide +kernel

-- 2.5, with the non-canonical inner key
theorem test_buildo :
    (stepWord 0x50012345 { State.reset with ink := 0x00222200 }).cand = 0x12705634 ∧
    (stepWord 0x5000000F { State.reset with ink := 0x00FFFF00 }).cand = 0x00BFBF00 := by
  decide +kernel

-- 2.5
theorem test_kset : (stepWord 0x6C000000 { State.reset with cand := 0x01234567 }).k3 = 0x01234567 := by
  decide +kernel

-- 2.6
theorem test_fclr :
    (stepWord 0x90000000 { State.reset with filt := Filt.ofWord 0x0B }).filt.toWord = 0x14 := by
  decide +kernel

-- 2.7
theorem test_ygen :
    (stepWord 0x70000000 v1).y3 = 0xDCAFB95D ∧ (stepWord 0x70000000 v1).y1 = 0x397DB1C2 := by
  decide +kernel

-- 2.7, with the wrong K3
theorem test_kderive :
    (stepWord 0x80000000 { v2 with k3 := 0x76543211 }).k4 = 0x011D7DCC ∧
    (stepWord 0x80000000 { v2 with k3 := 0x76543211 }).k5 = 0x322E4EFF := by decide +kernel

-- 2.8: an illegal word changes nothing but ILL
theorem test_illegal_word :
    stepWord 0xA0000000 v1 = { v1 with status := { ill := true, herr := false } } := by
  decide +kernel

-- a command placed by withFetchWord runs next
theorem test_placed_word :
    (after (step (State.reset.withFetchWord 32 0x400008A2))).cand = 0x00222200 := by decide +kernel

/-! ### Host accesses, spec/95_test_vectors.md 2.9 -/

theorem test_read_id :
    (stepOn (.read 0x5C) State.reset).reads = [0x46344C41] ∧
    (stepOn (.read 0x5C) State.reset).status.toWord = 0 := by decide +kernel

theorem test_read_reserved :
    (stepOn (.read 0x60) State.reset).reads = [0] ∧
    (stepOn (.read 0x60) State.reset).status.toWord = 2 := by decide +kernel

theorem test_write_misaligned_at_cmd :
    stepOn (.write 0x7D 0x90000000) { State.reset with filt := Filt.ofWord 0x0B } =
      { State.reset with filt := Filt.ofWord 0x0B, status := { ill := false, herr := true } } := by
  decide +kernel

theorem test_write_ebit : (stepOn (.write 0x50 0xFFFFFFFF) State.reset).ebit = 1 := by
  decide +kernel

theorem test_clear_ill_keeps_herr :
    (stepOn (.write 0x58 1) { State.reset with status := { ill := true, herr := true } }).status =
      { ill := false, herr := true } := by decide +kernel

theorem test_write_filt :
    (stepOn (.write 0x54 0xFFFFFFFF) State.reset).filt.toWord = 0x1F := by decide +kernel

/-! ### Assembler text, 30_encoding.md R102, R103 -/

theorem test_assemble_command :
    assembleLine ['e', 'v', 'a', 'l', '.', 'a', ' ', 'K', '3', ',', ' ', 'O', 'u', 't', 'e', 'r', ';',
      'x'] = .op (.command (.evalA .k3 .outer)) := by decide +kernel

theorem test_assemble_out_of_range :
    assembleLine ['B', 'U', 'I', 'L', 'D', 'I', ' ', '#', '4', '0', '9', '6'] = .asmError ∧
    assembleLine ['B', 'U', 'I', 'L', 'D', 'I', ' ', '#', '0', 'x', 'f', 'f', 'F'] =
      .op (.command (.buildi 4095)) := by decide +kernel

/-! ### Witnesses: states and operands that meet the hypotheses of the statements -/

theorem witness_PositionsAreMaskedParity :
    [0, 5, 31].Nodup ∧ (∀ p ∈ [0, 5, 31], p < 32) ∧ (31 : Nat) < 32 := by decide

theorem witness_illegal_words_of_each_opcode :
    (opOf 0x00000001 = 0x0 ∧ (0x00000001 : Word) ≠ 0x00000000) ∧
    (opOf 0x10000001 = 0x1 ∧ (0x10000001 : Word) ≠ 0x10000000) ∧
    (opOf 0x22000000 = 0x2 ∧ (0x22000000 : Word) ≠ 0x20000000 ∧ (0x22000000 : Word) ≠ 0x21000000) ∧
    (opOf 0x30000001 = 0x3 ∧ (0x30000001 : Word).extractLsb' 0 20 ≠ 0) ∧
    (opOf 0x30100000 = 0x3 ∧ (0x30100000 : Word).extractLsb' 20 4 ≠ 0) ∧
    (opOf 0x40001000 = 0x4 ∧ (0x40001000 : Word).extractLsb' 12 16 ≠ 0) ∧
    (opOf 0x50100000 = 0x5 ∧ (0x50100000 : Word).extractLsb' 20 8 ≠ 0) ∧
    (opOf 0x60000001 = 0x6 ∧ (0x60000001 : Word).extractLsb' 0 26 ≠ 0) ∧
    (opOf 0x70000001 = 0x7 ∧ (0x70000001 : Word) ≠ 0x70000000) ∧
    (opOf 0x84000000 = 0x8 ∧ (0x84000000 : Word) ≠ 0x80000000) ∧
    (opOf 0x91000000 = 0x9 ∧ (0x91000000 : Word) ≠ 0x90000000) := by decide

theorem witness_DecryptRule_example :
    v1.pl = 0 ∧ v1.pr = 0 ∧ v1.cl = 0xF4C3198E ∧ v1.cr = 0x39073A30 ∧ v1.subkeys = testKey := by
  decide

theorem witness_EvalRule_example :
    v1.approx = defaultApprox ∧ v1.pl = 0 ∧ v1.pr = 0 ∧ v1.cl = 0xF4C3198E ∧ v1.cr = 0x39073A30 ∧
    v1.k0 = 0x01234567 ∧ v1.k1 = 0x89ABCDEF ∧ v1.k2 = 0xFEDCBA98 ∧
    ({ v1 with cand := 0x01234567 } : State).cand = 0x01234567 ∧
    ({ v1 with cand := 0x89ABCDEF } : State).cand = 0x89ABCDEF := by decide

theorem witness_BuildoRule :
    State.reset.ink = 0 ∧ ({ State.reset with ink := 0x00222200 } : State).ink = 0x00222200 := by
  decide

theorem witness_KsetRule :
    State.reset.approx = defaultApprox ∧
    ({ State.reset with cand := 0x89ABCDEF } : State).cand = 0x89ABCDEF := by decide

theorem witness_FclrRule :
    exec .fclr v1 = .next (after (exec .fclr v1)) ∧
    hostRead 0x54 State.reset = (0x00000014, State.reset) := ⟨rfl, rfl⟩

theorem witness_KderiveRule :
    exec .kderive v1 = .next (after (exec .kderive v1)) ∧
    exec .kderive (loaded ⟨0x01234567, 0x89ABCDEF, 0x915FFA15, 0x667E794D⟩
        { testKey with k3 := 0x76543211 }) =
      .next (after (exec .kderive (loaded ⟨0x01234567, 0x89ABCDEF, 0x915FFA15, 0x667E794D⟩
        { testKey with k3 := 0x76543211 }))) := ⟨rfl, rfl⟩

/-- The premises of CommandsWriteOnlyTheirRegisters, at a command each of them admits. -/
theorem witness_CommandsWriteOnlyTheirRegisters :
    (Instr.kset .k3 ≠ .kset .k0 ∧ Instr.kset .k3 ≠ .kset .k1 ∧ Instr.kset .k3 ≠ .kset .k2 ∧
      Instr.kset .k2 ≠ .kset .k3) ∧
    Instr.ygen ≠ .kderive ∧ Instr.nop ≠ .xform ∧
    ((∀ n, Instr.kset .k0 ≠ .buildi n) ∧ ∀ n, Instr.kset .k0 ≠ .buildo n) ∧
    (Instr.eval .k0 .inner ≠ .decrypt ∧ Instr.eval .k0 .inner ≠ .decryptA ∧
      Instr.eval .k0 .inner ≠ .fclr) ∧
    (Instr.xform ≠ .ygen ∧ Instr.xform ≠ .kderive) ∧
    ((∀ s v, Instr.decrypt ≠ .evalA s v) ∧ (∀ s v, Instr.decrypt ≠ .eval s v) ∧
      Instr.decrypt ≠ .fclr) := by
  refine ⟨by decide, by decide, by decide, ⟨?_, ?_⟩, by decide, by decide, ?_, ?_, by decide⟩ <;>
    intros <;> simp

theorem witness_ConformanceOfTables :
    stageNumber .k0 ≤ 0 ∧ stageNumber .k1 ≤ 1 ∧ stageNumber .k2 ≤ 2 := by decide

theorem witness_ConformingStageIgnoresUnfixedKeys :
    tableConforms defaultApprox = true ∧
    FixedBefore .k1 testKey 0x01234567 0 0 ∧ FixedBefore .k1 testKey 0x01234567 1 2 := by
  unfold FixedBefore; decide

theorem witness_TrueKeyEvaluatorsAreConstant :
    FixedBefore .k0 testKey 5 6 7 ∧ FixedBefore .k3 testKey 0x01234567 0x89ABCDEF 0xFEDCBA98 := by
  unfold FixedBefore; decide

theorem witness_InnerEvaluatorSeesTwelveBits :
    InClass 2210 0x01234567 ∧ InClass 2210 0x00222200 ∧
    defaultBit .k0 .inner v1.pair 0 0 0 0x01234567 =
      defaultBit .k0 .inner v2.pair 0 0 0 0x01234567 := by
  unfold InClass; decide +kernel

theorem witness_InnerCandidateMap : buildInner 4095 = buildInner 4095 := rfl

theorem witness_OuterCandidatesCoverTheClass :
    InClass 2210 0x01234567 ∧ InClass 0 0x00000000 ∧ InClass 4095 0x003F3F00 ∧
    buildOuter 0x01670 (buildInner 2210) = buildOuter 0x01670 (buildInner 2210) := by
  unfold InClass; decide

theorem witness_DerivedKeysReproduceThePair :
    v1.pair = pairUnder testKey ⟨0, 0⟩ ∧ v1.k0 = testKey.k0 ∧ v1.k1 = testKey.k1 ∧
    v1.k2 = testKey.k2 ∧ v1.k3 = testKey.k3 := by decide +kernel

/-- The three cases of FilterAccumulation: nothing seen; a bit that differs from the recorded one;
one that equals it. The bit is 0 here (spec/95_test_vectors.md 2.3). -/
theorem witness_FilterAccumulation :
    v1.filt.seen = false ∧
    (({ v1 with cand := 0x01234567, filt := Filt.ofWord 0x17 } : State).filt.seen = true ∧
      ({ v1 with cand := 0x01234567, filt := Filt.ofWord 0x17 } : State).evaluator .k0 .inner ≠
        ({ v1 with cand := 0x01234567, filt := Filt.ofWord 0x17 } : State).filt.ref) ∧
    (({ v1 with cand := 0x01234567, filt := Filt.ofWord 0x15 } : State).filt.seen = true ∧
      ({ v1 with cand := 0x01234567, filt := Filt.ofWord 0x15 } : State).evaluator .k0 .inner =
        ({ v1 with cand := 0x01234567, filt := Filt.ofWord 0x15 } : State).filt.ref) := by
  decide +kernel

theorem witness_verdict_lists :
    ([] : List Pair) = [] ∧ [v1.pair, v2.pair] = v1.pair :: [v2.pair] ∧
    [v1.pair, v2.pair] = [v1.pair] ++ [v2.pair] := ⟨rfl, rfl, rfl⟩

/-- A list of moves with reads between the commands that none of MayRearm is in, and the bits it
accumulates and the compares it makes from the state of `v1`. -/
theorem witness_FilterVerdict_ValidationVerdict :
    (∀ m ∈ [HostMove.write 0x7C 0x31000000, .read 0x54, .write 0x7C 0x21000000], ¬ MayRearm m) ∧
    accumulated [.write 0x7C 0x90000000, .write 0x7C 0x31000000, .read 0x54, .write 0x7C 0x21000000]
      { v1 with cand := 0x01234567 } = [false] ∧
    validated [.write 0x7C 0x90000000, .write 0x7C 0x31000000, .read 0x54, .write 0x7C 0x21000000]
      v1 = [true] := by
  refine ⟨?_, by decide +kernel, by decide +kernel⟩
  intro m hm
  simp only [List.mem_cons, List.not_mem_nil, or_false] at hm
  rcases hm with rfl | rfl | rfl <;> simp [MayRearm]

/-- A state that records one bit 1 and one compare, with an EVAL.A that gives 0 waiting, and one with
a DECRYPT.A that matches waiting. -/
theorem witness_RecordsKeptByEveryStep :
    let s : State :=
      { v1 with cand := 0x01234567, filt := Filt.ofWord 0x17, port := [.write 0x7C 0x31000000] }
    let u : State := { s with port := [.write 0x7C 0x21000000] }
    (FilterRecords s.filt [true] ∧ (∀ m ∈ s.port.head?, ¬ MayRearm m) ∧
      step s = .next (after (step s)) ∧ accumulatedBy (.write 0x7C 0x31000000) s = [false] ∧
      FilterRecords (after (step s)).filt [true, false]) ∧
    (ValidationRecords u.filt [true] ∧ (∀ m ∈ u.port.head?, ¬ MayRearm m) ∧
      step u = .next (after (step u)) ∧ validatedBy (.write 0x7C 0x21000000) u = [true] ∧
      ValidationRecords (after (step u)).filt [true, true]) ∧
    exec .fclr s = .next (after (exec .fclr s)) := by
  unfold FilterRecords ValidationRecords
  refine ⟨⟨by decide +kernel, ?_, rfl, by decide +kernel, by decide +kernel⟩,
    ⟨by decide +kernel, ?_, rfl, by decide +kernel, by decide +kernel⟩, rfl⟩ <;>
    simp [MayRearm]

/-- A rejected state with a read and a command of another kind waiting: the premises of both
invariants of VerdictsNeverRelax, and a step of it. -/
def rejected : State :=
  { v1 with filt := Filt.ofWord 0x03, port := [.write 0x7C 0x31000000, .read 0x54] }

theorem witness_VerdictsNeverRelax :
    (rejected.filt.ok = false ∧ ∀ m ∈ rejected.port, ¬ MayRearm m) ∧
    (rejected.filt.vok = false ∧ ∀ m ∈ rejected.port, ¬ MayRearm m) ∧
    step rejected = .next (after (step rejected)) ∧
    (Instr.evalA .k0 .inner ≠ .fclr ∧
      exec (.evalA .k0 .inner) rejected = .next (after (exec (.evalA .k0 .inner) rejected))) := by
  have hp : ∀ m ∈ rejected.port, ¬ MayRearm m := by
    intro m hm
    simp only [rejected, List.mem_cons, List.not_mem_nil, or_false] at hm
    rcases hm with rfl | rfl <;> simp [MayRearm]
  exact ⟨⟨rfl, hp⟩, ⟨rfl, hp⟩, rfl, by decide, rfl⟩

theorem witness_EncodeOfDecode : decode 0x400008A2 = .ok (.buildi 2210) := rfl

theorem witness_IllegalWordsExactly : decode 0x40001000 = .error .mustBeZero := rfl

theorem witness_StepRunsTheDecodedCommand :
    ({ v1 with port := [.write 0x7C 0x90000000, .read 0] } : State).port =
      .write 0x7C 0x90000000 :: [.read 0] ∧ decode 0x90000000 = .ok .fclr ∧
    decode 0xA0000000 = .error .reservedOp := ⟨rfl, rfl, rfl⟩

theorem witness_PlacedWordRunsNext : decodeTableWord 32 0x3F000000 = some (.evalA .k3 .outer) := rfl

/-- First and last offset of the read table, and first and last offset of the erring reads. -/
theorem witness_HostReadTable :
    ({ v1 with port := [.read 0x5C] } : State).port = .read 0x5C :: [] ∧
    (0x00, v1.pl) ∈ readTable v1 ∧ (0x5C, 0x46344C41) ∈ readTable v1 ∧
    ((0x60 : BitVec 7).toNat % 4 = 0 ∧ reservedOffset 0x60) ∧
    ((0x78 : BitVec 7).toNat % 4 = 0 ∧ reservedOffset 0x78) ∧ (0x7C : BitVec 7).toNat % 4 = 0 := by
  unfold reservedOffset; decide

/-- First and last offset of the write table, CMD, and the aligned writes that err. -/
theorem witness_HostWriteTable :
    ({ v1 with port := [.write 0x58 3] } : State).port = .write 0x58 3 :: [] ∧
    (0x00, { v1 with pl := 7 }) ∈ writeTable v1 7 ∧
    (0x58, { v1 with status := { ill := false, herr := false } }) ∈ writeTable v1 3 ∧
    ((0x60 : BitVec 7).toNat % 4 = 0 ∧ reservedOffset 0x60) ∧
    ((0x78 : BitVec 7).toNat % 4 = 0 ∧ reservedOffset 0x78) ∧ (0x5C : BitVec 7).toNat % 4 = 0 := by
  unfold reservedOffset; decide +kernel

/-- An erring move of each kind and moves that do not err, at the edges of the reserved range. -/
theorem witness_HerrExactly :
    ({ v1 with port := [.read 0x7C] } : State).port = .read 0x7C :: [] ∧
    ErringMove (.read 0x01) ∧ ErringMove (.read 0x60) ∧ ErringMove (.read 0x78) ∧
    ErringMove (.read 0x7C) ∧ ErringMove (.write 0x7F 0) ∧ ErringMove (.write 0x78 0) ∧
    ErringMove (.write 0x5C 0) ∧ ¬ ErringMove (.write 0x7C 0) ∧ ¬ ErringMove (.read 0x5C) ∧
    ¬ ErringMove .reset ∧ v1.status.herr = false ∧
    step { v1 with port := [.read 0x5C] } = .next (after (step { v1 with port := [.read 0x5C] })) := by
  refine ⟨rfl, ?_, ?_, ?_, ?_, ?_, ?_, ?_, ?_, ?_, id, rfl, rfl⟩ <;>
    unfold ErringMove <;> unfold reservedOffset <;> decide

theorem witness_OneErrorAtMostInOrder :
    v1.status = { ill := false, herr := false } ∧
    ({ v1 with port := [.write 0x7D 0xA0000000] } : State).port = .write 0x7D 0xA0000000 :: [] ∧
    (0x7D : BitVec 7).toNat % 4 ≠ 0 ∧ decode 0xA0000000 = .error .reservedOp ∧
    exec .fclr v1 = .next (after (exec .fclr v1)) ∧
    step { v1 with port := [.read 0x60] } = .next (after (step { v1 with port := [.read 0x60] })) :=
  ⟨rfl, rfl, by decide, rfl, rfl, rfl⟩

/-- A state with both flags set whose port holds a write of STATUS that clears neither. -/
def flagged : State :=
  { v1 with status := { ill := true, herr := true }, port := [.write 0x58 0xFFFFFFFC, .read 0x58] }

theorem witness_ErrorFlagsAreSticky :
    (flagged.status.ill = true ∧
      ∀ m ∈ flagged.port, m ≠ .reset ∧ ∀ v : Word, v.getLsbD 0 = true → m ≠ .write 0x58 v) ∧
    (flagged.status.herr = true ∧
      ∀ m ∈ flagged.port, m ≠ .reset ∧ ∀ v : Word, v.getLsbD 1 = true → m ≠ .write 0x58 v) ∧
    step flagged = .next (after (step flagged)) := by
  refine ⟨⟨rfl, ?_⟩, ⟨rfl, ?_⟩, rfl⟩ <;>
  · intro m hm
    simp only [flagged, List.mem_cons, List.not_mem_nil, or_false] at hm
    rcases hm with rfl | rfl
    · refine ⟨by simp, ?_⟩
      intro v hv h
      injection h with _ h
      subst h
      exact absurd hv (by decide)
    · exact ⟨by simp, by simp⟩

theorem witness_ErrorFlagsDoNotSteer :
    ({ v1 with port := [.read 0x54] } : State).port.head? ≠ some (.read 0x58) ∧
    step { v1 with port := [.read 0x54] } = .next (after (step { v1 with port := [.read 0x54] })) :=
  ⟨by decide, rfl⟩

/-- Moves that do not write K0 (a write of its neighbour, an erring read, an illegal word, a command
and KSET of another stage), moves that do not write STATUS, and the offset next to the window's end. -/
theorem witness_AccessesSeeEarlierWrites :
    (∀ m ∈ [HostMove.write 0x14 5, .read 0x7C, .write 0x7C 0xA0000000, .write 0x7C 0x64000000],
      ¬ MayWrite m (.data .k0)) ∧
    (∀ m ∈ [HostMove.write 0x54 0, .read 0x58, .write 0x7C 0x80000000], ¬ MayWrite m .status) ∧
    (∀ m ∈ [HostMove.write 0x5C 0, .reset], ¬ MayWrite m .id) ∧
    WindowReg.data .k0 ≠ .cmd ∧ (0x7F : BitVec 7) ≠ regOffset (.data .pl) := by
  have h1 : decode 0xA0000000#32 = .error .reservedOp := rfl
  have h2 : decode 0x64000000#32 = .ok (.kset .k1) := rfl
  have h3 : decode 0x80000000#32 = .ok .kderive := rfl
  refine ⟨?_, ?_, ?_, by decide, by decide⟩ <;> intro m hm <;>
    simp only [List.mem_cons, List.not_mem_nil, or_false] at hm
  · rcases hm with rfl | rfl | rfl | rfl <;>
      simp [MayWrite, regOffset, regIndex, writtenBy, h1, h2]
  · rcases hm with rfl | rfl | rfl <;>
      simp [MayWrite, regOffset, regIndex, ErringMove, reservedOffset, writtenBy, h3]
  · rcases hm with rfl | rfl <;> simp [MayWrite]

theorem witness_ResetEvent :
    ({ v1 with port := [.reset, .read 0] } : State).port = .reset :: [.read 0] := rfl

theorem witness_EbitReservedBitsStayZero :
    ({ v1 with ebit := 1, port := [.write 0x50 0xFFFFFFFF] } : State).ebit.toNat < 2 ∧
    step { v1 with ebit := 1, port := [.write 0x50 0xFFFFFFFF] } =
      .next (after (step { v1 with ebit := 1, port := [.write 0x50 0xFFFFFFFF] })) :=
  ⟨by decide, rfl⟩

theorem witness_ApproxNeverChanges :
    step { v1 with port := [.reset] } = .next (after (step { v1 with port := [.reset] })) ∧
    runMoves [.reset, .read 0] v1 = .next (after (runMoves [.reset, .read 0] v1)) := ⟨rfl, rfl⟩

theorem witness_IdlePortWaits : State.reset.port = [] := rfl

end Sys2Proof.Tests
end

section
/-! PROOFS. The bytes of a word and cat8 as numbers (spec/00_scope.md R8). -/

namespace Sys2Proof.Machine

/-! ### The value of each byte -/

theorem byte0_toNat (v : Word) : (byte0 v).toNat = v.toNat / 2 ^ 24 := by
  have hv : v.toNat < 2 ^ 32 := v.isLt
  rw [byte0, BitVec.extractLsb'_toNat, Nat.shiftRight_eq_div_pow]
  omega

theorem byte1_toNat (v : Word) : (byte1 v).toNat = v.toNat / 2 ^ 16 % 256 := by
  rw [byte1, BitVec.extractLsb'_toNat, Nat.shiftRight_eq_div_pow]

theorem byte2_toNat (v : Word) : (byte2 v).toNat = v.toNat / 2 ^ 8 % 256 := by
  rw [byte2, BitVec.extractLsb'_toNat, Nat.shiftRight_eq_div_pow]

theorem byte3_toNat (v : Word) : (byte3 v).toNat = v.toNat % 256 := by
  rw [byte3, BitVec.extractLsb'_toNat, Nat.shiftRight_zero]

/-! ### The value of a word from its bytes -/

/-- A word's bytes are its digits to base 256. -/
theorem toNat_eq_sum_bytes (v : Word) :
    v.toNat = (byte0 v).toNat * 2 ^ 24 + (byte1 v).toNat * 2 ^ 16 +
      (byte2 v).toNat * 2 ^ 8 + (byte3 v).toNat := by
  rw [byte0_toNat, byte1_toNat, byte2_toNat, byte3_toNat]
  omega

theorem cat8_toNat (a b c d : Byte) :
    (cat8 a b c d).toNat = a.toNat * 2 ^ 24 + b.toNat * 2 ^ 16 + c.toNat * 2 ^ 8 + d.toNat := by
  have h := toNat_eq_sum_bytes (cat8 a b c d)
  rwa [byte0_cat8, byte1_cat8, byte2_cat8, byte3_cat8] at h

/-- Settles O2: each byte is a digit of the word to base 256, and `cat8` is the word with the four
given digits. -/
theorem bytesMostSignificantFirst : Obligations.BytesMostSignificantFirst :=
  ⟨fun v => ⟨byte0_toNat v, byte1_toNat v, byte2_toNat v, byte3_toNat v⟩, cat8_toNat⟩

end Sys2Proof.Machine
end

section
/-! PROOFS. FILT and the reset values as the host reads and writes them through the window
(spec/10_state.md R51, R56). -/

namespace Sys2Proof.Machine

/-! ### FILT through the window -/

/-- Bits 4:0 are what FILT keeps of a word: the fields of the written value are its low digits to
base 2, and the read value is their sum. -/
theorem toWord_ofWord (v : Word) : (Filt.ofWord v).toWord = v &&& 0x0000001F := by
  have bit_toNat (i : Nat) : (v.getLsbD i).toNat = v.toNat / 2 ^ i % 2 := Nat.toNat_testBit _ _
  have low_toNat : (v &&& 0x0000001F).toNat = v.toNat % 32 := by
    rw [BitVec.toNat_and]
    exact Nat.and_two_pow_sub_one_eq_mod v.toNat 5
  apply BitVec.eq_of_toNat_eq
  rw [low_toNat, Filt.toWord, BitVec.toNat_ofNat]
  simp only [ofWord_seen, ofWord_ref, ofWord_ok, ofWord_matched, ofWord_vok, bit_toNat]
  omega

theorem hostWrite_filt (v : Word) (s : State) :
    hostWrite 0x54 v s = .next (s.setFilt (Filt.ofWord v)) :=
  hostWrite_reg v s (r := .filt) (by decide)

theorem hostRead_filt (s : State) : hostRead 0x54 s = (s.filt.toWord, s) :=
  hostRead_reg s (r := .filt) (by decide)

/-- Settles O49: a write of FILT stores `Filt.ofWord`, a read returns `Filt.toWord`, and the two are
inverse on the low five bits. -/
theorem filtSaveAndRestore : Obligations.FiltSaveAndRestore := by
  unfold Obligations.FiltSaveAndRestore
  constructor
  · intro s v
    have read_back : hostRead 0x54 (s.setFilt (Filt.ofWord v)) =
        (v &&& 0x0000001F, s.setFilt (Filt.ofWord v)) := by
      rw [hostRead_filt, setFilt_filt, toWord_ofWord]
    exact ⟨s.setFilt (Filt.ofWord v), hostWrite_filt v s, rfl, ofWord_seen v, ofWord_ref v,
      ofWord_ok v, ofWord_matched v, ofWord_vok v, read_back⟩
  · intro s s'
    rw [hostRead_filt, hostWrite_filt, ofWord_toWord, State.setFilt]

/-! ### The reset values -/

/-- Every data register is 0 in the reset state, which the reset event keeps. -/
theorem get_reset (r : DataReg) : State.reset.get r = 0 :=
  get_platformReset State.reset r

/-- Settles O52: every read but one of CMD returns the register's value and changes nothing, and the
value is the one R56 gives. -/
theorem resetValues : Obligations.ResetValues := by
  unfold Obligations.ResetValues
  refine ⟨?data, ?ebit, ?filt, ?status, ?id, rfl⟩
  case data =>
    intro r
    rw [hostRead_reg State.reset (by simp), State.readReg, get_reset]
  case ebit => exact hostRead_reg State.reset (r := .ebit) (by decide)
  case filt =>
    have cleared : State.reset.filt = Filt.cleared := rfl
    rw [hostRead_filt, cleared, toWord_cleared]
  case status => exact hostRead_reg State.reset (r := .status) (by decide)
  case id => exact hostRead_reg State.reset (r := .id) (by decide)

end Sys2Proof.Machine
end

section
/-! PROOFS. The host window: what each aligned read and write returns and does, and the command a
write to CMD runs (spec/20_memory.md R64 to R66). -/

namespace Sys2Proof.Machine

open Sys2Proof.Claims

/-! ### The step on a waiting move -/

/-- A step accepts the move that waits first. -/
theorem step_cons {s : State} {m : HostMove} {rest : List HostMove} (h : s.port = m :: rest) :
    step s = accept m { s with port := rest } := by
  rw [step, stepPort, h]

theorem step_read {s : State} {a : BitVec 7} {rest : List HostMove} (h : s.port = .read a :: rest) :
    step s = .next ((hostRead a { s with port := rest }).2.logRead
      (hostRead a { s with port := rest }).1) :=
  step_cons h

theorem step_write {s : State} {a : BitVec 7} {v : Word} {rest : List HostMove}
    (h : s.port = .write a v :: rest) : step s = hostWrite a v { s with port := rest } :=
  step_cons h

/-! ### A write to CMD -/

/-- A step on a write to CMD runs the word at the state with the move taken off the port. -/
theorem step_write_cmd {s : State} {w : Word} {rest : List HostMove}
    (h : s.port = .write 0x7C w :: rest) : step s = runCommand w { s with port := rest } :=
  (step_write h).trans (hostWrite_cmd w _)

/-- Settles O41: the step hands the word to `runCommand`, whose two cases are the two clauses. -/
theorem stepRunsTheDecodedCommand : Obligations.StepRunsTheDecodedCommand := by
  unfold Obligations.StepRunsTheDecodedCommand
  constructor
  · intro s w i rest hport legal
    rw [step_write_cmd hport, runCommand_legal _ legal]
  · intro s w e rest hport illegal
    rw [step_write_cmd hport, runCommand_illegal _ illegal]
    rfl

/-! ### Reserved indices -/

theorem slotAt_of_reservedOffset {a : BitVec 7} (h : reservedOffset a) :
    slotAt (indexOf a) = none := by
  rw [slotAt_eq_none_iff, indexOf_toNat]
  exact h

theorem hostWrite_reserved {a : BitVec 7} (v : Word) (s : State) (h : slotAt (indexOf a) = none) :
    hostWrite a v s = .next s.raiseHerr := by
  simp [hostWrite, h]

/-! ### The tables of R64 and R65, register by register -/

/-- The data registers in the order of their indices, 0 to 19 (10_state.md R30). -/
def dataRegs : List DataReg :=
  [.pl, .pr, .cl, .cr, .k0, .k1, .k2, .k3, .k4, .k5, .cand, .ink, .x, .t, .dl, .dr, .y0, .y1, .y2,
    .y3]

/-- The registers an aligned host write stores into, indices 0 to 22 (20_memory.md R65). -/
def storingRegs : List WindowReg := dataRegs.map .data ++ [.ebit, .filt, .status]

/-- The registers an aligned host read does not err at, indices 0 to 23 (20_memory.md R64). -/
def readableRegs : List WindowReg := storingRegs ++ [.id]

theorem ne_cmd_of_mem_readableRegs {r : WindowReg} (h : r ∈ readableRegs) : r ≠ .cmd := by
  rintro rfl
  exact absurd h (by decide)

theorem ne_cmd_of_mem_storingRegs {r : WindowReg} (h : r ∈ storingRegs) : r ≠ .cmd :=
  ne_cmd_of_mem_readableRegs (List.mem_append_left _ h)

/-- Bit 0 with zeros above it, as EBIT is read and written. -/
theorem extractLsb'_bit0_setWidth (v : Word) :
    (v.extractLsb' 0 1).setWidth 32 = if v.getLsbD 0 then 1 else 0 := by
  have digit : v.extractLsb' 0 1 = BitVec.ofBool (v.getLsbD 0) := by
    ext i hi
    obtain rfl : i = 0 := by omega
    simp
  rw [digit]
  cases v.getLsbD 0 <;> rfl

/-- Write-1-to-clear, as R65 words it: a flag goes to 0 if its bit is written 1. -/
theorem clearOnes_eq_ite (st : Status) (v : Word) :
    st.clearOnes v =
      { ill := if v.getLsbD 0 then false else st.ill,
        herr := if v.getLsbD 1 then false else st.herr } := by
  rw [Status.clearOnes]
  cases v.getLsbD 0 <;> cases v.getLsbD 1 <;> simp

/-- The read table lists every readable register at its offset with the value it reads as. -/
theorem readTable_eq_map (s : State) :
    readTable s = readableRegs.map fun r => (regOffset r, s.readReg r) := by
  rw [readTable, ← extractLsb'_bit0_setWidth]
  rfl

/-- The write table lists every storing register at its offset with the state its write leads to. -/
theorem writeTable_eq_map (s : State) (v : Word) :
    writeTable s v = storingRegs.map fun r => (regOffset r, s.writeReg r v) := by
  rw [writeTable, ← extractLsb'_bit0_setWidth, ← clearOnes_eq_ite]
  rfl

theorem hostRead_of_mem_readTable {s : State} {a : BitVec 7} {v : Word}
    (h : (a, v) ∈ readTable s) : hostRead a s = (v, s) := by
  rw [readTable_eq_map] at h
  obtain ⟨r, hr, ⟨⟩⟩ := List.mem_map.mp h
  exact hostRead_reg s (ne_cmd_of_mem_readableRegs hr)

theorem hostWrite_of_mem_writeTable {s t : State} {a : BitVec 7} {v : Word}
    (h : (a, t) ∈ writeTable s v) : hostWrite a v s = .next t := by
  rw [writeTable_eq_map] at h
  obtain ⟨r, hr, ⟨⟩⟩ := List.mem_map.mp h
  exact hostWrite_reg v s (ne_cmd_of_mem_storingRegs hr)

/-! ### Every aligned access -/

/-- Settles O43: an offset of the table belongs to a readable register, whose read changes nothing;
a reserved index and CMD raise HERR and read 0. The table does not depend on the moves waiting. -/
theorem hostReadTable : Obligations.HostReadTable := by
  unfold Obligations.HostReadTable
  intro s a rest hport
  constructor
  · intro v hv
    have read : hostRead a { s with port := rest } = (v, { s with port := rest }) :=
      hostRead_of_mem_readTable hv
    rw [step_read hport, read, State.logRead]
  · intro _ herr
    have read : hostRead a { s with port := rest } = (0, { s with port := rest }.raiseHerr) := by
      rcases herr with reserved | rfl
      · exact hostRead_reserved _ (slotAt_of_reservedOffset reserved)
      · exact hostRead_cmd _
    rw [step_read hport, read]
    rfl

/-- Settles O44: an offset of the table belongs to a storing register, CMD hands the word to
`runCommand`, and ID and a reserved index only raise HERR. -/
theorem hostWriteTable : Obligations.HostWriteTable := by
  unfold Obligations.HostWriteTable
  intro s a v rest hport
  rw [step_write hport]
  refine ⟨?stores, ?command, ?errs⟩
  case stores => exact fun t ht => hostWrite_of_mem_writeTable ht
  case command =>
    rintro rfl
    exact hostWrite_cmd v _
  case errs =>
    rintro _ (reserved | rfl)
    · exact hostWrite_reserved v _ (slotAt_of_reservedOffset reserved)
    · exact hostWrite_reg v _ (r := .id) (by decide)

end Sys2Proof.Machine
end

section
/-! PROOFS. Encoding a decoded word, and which command words are illegal (spec/30_encoding.md R92,
R98, R99, R104). -/

namespace Sys2Proof

open Sys2Proof.Machine Sys2Proof.Claims

/-! ### A word as the sum and as the assembly of its fields -/

theorem toNat_eq_sum_fields (w : Word) :
    w.toNat = (fieldsOf w).op.toNat * 2 ^ 28 + (fieldsOf w).stg.toNat * 2 ^ 26 +
      (fieldsOf w).var.toNat * 2 ^ 25 + (fieldsOf w).acc.toNat * 2 ^ 24 +
      (fieldsOf w).rsv.toNat * 2 ^ 20 + (fieldsOf w).imm.toNat := by
  have hw : w.toNat < 2 ^ 32 := w.isLt
  simp only [fieldsOf, BitVec.extractLsb'_toNat, Nat.shiftRight_eq_div_pow]
  omega

theorem assembleWord_toNat (op : BitVec 4) (stg : BitVec 2) (var acc : BitVec 1)
    (imm : BitVec 20) :
    (assembleWord op stg var acc imm).toNat =
      op.toNat * 2 ^ 28 + stg.toNat * 2 ^ 26 + var.toNat * 2 ^ 25 + acc.toNat * 2 ^ 24 +
        imm.toNat := by
  rw [toNat_eq_sum_fields, fieldsOf_assembleWord]
  simp

theorem assembleWord_fieldsOf {w : Word} (h : (fieldsOf w).rsv = 0) :
    assembleWord (fieldsOf w).op (fieldsOf w).stg (fieldsOf w).var (fieldsOf w).acc
      (fieldsOf w).imm = w := by
  apply eq_of_fieldsOf
  rw [fieldsOf_assembleWord, ← h]

/-! ### IMM20 as the eight bits above a BUILDI index, and the index -/

theorem fieldsOf_imm_high (w : Word) : (fieldsOf w).imm.extractLsb' 12 8 = w.extractLsb' 12 8 := by
  apply BitVec.eq_of_toNat_eq
  simp only [fieldsOf, BitVec.extractLsb'_toNat, Nat.shiftRight_eq_div_pow]
  omega

theorem imm_eq_append (imm : BitVec 20) : imm.extractLsb' 12 8 ++ imm.extractLsb' 0 12 = imm :=
  (BitVec.extractLsb'_append_extractLsb'_eq_extractLsb' rfl).trans BitVec.extractLsb'_eq_self

theorem imm_of_high_eq_zero {imm : BitVec 20} (h : imm.extractLsb' 12 8 = 0#8) :
    (imm.extractLsb' 0 12).setWidth 20 = imm := by
  have halves := imm_eq_append imm
  rw [h] at halves
  exact (BitVec.setWidth_eq_append (by decide)).trans halves

/-- R92's mask of BUILDI selects from IMM20 the bits above the index. -/
theorem imm_and_high_eq_zero_iff (imm : BitVec 20) :
    imm &&& 0xFF000#20 = 0#20 ↔ imm.extractLsb' 12 8 = 0#8 := by
  constructor
  · intro h
    have high := congrArg (BitVec.extractLsb' 12 8) h
    rw [BitVec.extractLsb'_and] at high
    exact BitVec.and_allOnes.symm.trans high
  · intro h
    have mask_halves : 0xFF000#20 = 0xFF#8 ++ 0#12 := rfl
    rw [← imm_eq_append imm, h, mask_halves, BitVec.and_append, BitVec.zero_and, BitVec.and_zero]
    rfl

/-! ### The case split on OP -/

/-- One case for each value of OP in use, and one for the reserved ones (30_encoding.md R100). -/
theorem op_cases {motive : BitVec 4 → Prop} (nop : motive 0x0) (xform : motive 0x1)
    (decrypt : motive 0x2) (eval : motive 0x3) (buildi : motive 0x4) (buildo : motive 0x5)
    (kset : motive 0x6) (ygen : motive 0x7) (kderive : motive 0x8) (fclr : motive 0x9)
    (reserved : ∀ op, 10 ≤ op.toNat → motive op) (op : BitVec 4) : motive op := by
  have listed : op = 0x0 ∨ op = 0x1 ∨ op = 0x2 ∨ op = 0x3 ∨ op = 0x4 ∨ op = 0x5 ∨ op = 0x6 ∨
      op = 0x7 ∨ op = 0x8 ∨ op = 0x9 ∨ 10 ≤ op.toNat := by revert op; decide
  rcases listed with rfl | rfl | rfl | rfl | rfl | rfl | rfl | rfl | rfl | rfl | unused
  exacts [nop, xform, decrypt, eval, buildi, buildo, kset, ygen, kderive, fclr,
    reserved op unused]

theorem decodeFields_reserved {f : CommandFields} (h : 10 ≤ f.op.toNat) :
    decodeFields f = .error .reservedOp := by
  unfold decodeFields
  split
  case h_11 => rfl
  all_goals omega

theorem exists_requireZero_error_iff {zero : Bool} {i : Instr} :
    (∃ e, requireZero zero i = .error e) ↔ ¬ zero = true := by
  unfold requireZero
  split <;> simp_all

/-! ### Encoding a decoded word -/

/-- In each case the fields decoding requires to be 0 are those the encoder writes as 0, and the
others are the operands it writes back. -/
theorem encode_of_decodeFields {op : BitVec 4} {stg : BitVec 2} {var acc : BitVec 1}
    {rsv : BitVec 4} {imm : BitVec 20} {i : Instr}
    (h : decodeFields ⟨op, stg, var, acc, rsv, imm⟩ = .ok i) :
    encode i = assembleWord op stg var acc imm := by
  cases op using op_cases with
  | reserved op unused =>
    rw [decodeFields_reserved unused] at h
    cases h
  | decrypt | eval =>
    obtain ⟨zeros, rfl⟩ := requireZero_ok h
    have acc_cases : ∀ b : BitVec 1, b = 0 ∨ b = 1 := by decide
    rcases acc_cases acc with rfl | rfl <;> simp_all [encode]
  | buildi =>
    obtain ⟨zeros, rfl⟩ := requireZero_ok h
    simp_all [encode, imm_of_high_eq_zero]
  | _ =>
    obtain ⟨zeros, rfl⟩ := requireZero_ok h
    simp_all [encode]

theorem encode_of_decode {w : Word} {i : Instr} (h : decode w = .ok i) : encode i = w := by
  obtain ⟨rsv_zero, fields⟩ := decode_ok_cases h
  exact (encode_of_decodeFields fields).trans (assembleWord_fieldsOf rsv_zero)

/-- Settles O38: an assembled word is the sum of its fields, and a command keeps every field of the
legal word it was decoded from. -/
theorem encodeOfDecode : Obligations.EncodeOfDecode :=
  ⟨assembleWord_toNat, fun _ _ => encode_of_decode⟩

/-! ### The illegal words, field by field -/

/-- The cases of 30_encoding.md R99, on the fields of a word. -/
def IllegalFields (f : CommandFields) : Prop :=
  10 ≤ f.op.toNat ∨ f.rsv ≠ 0 ∨
    (f.op ∈ [0x0#4, 0x1#4, 0x7#4, 0x8#4, 0x9#4] ∧
      (f.stg ≠ 0 ∨ f.var ≠ 0 ∨ f.acc ≠ 0 ∨ f.imm ≠ 0)) ∨
    (f.op = 0x2 ∧ (f.stg ≠ 0 ∨ f.var ≠ 0 ∨ f.imm ≠ 0)) ∨
    (f.op = 0x3 ∧ f.imm ≠ 0) ∨
    (f.op = 0x4 ∧ (f.stg ≠ 0 ∨ f.var ≠ 0 ∨ f.acc ≠ 0 ∨ f.imm.extractLsb' 12 8 ≠ 0)) ∨
    (f.op = 0x5 ∧ (f.stg ≠ 0 ∨ f.var ≠ 0 ∨ f.acc ≠ 0)) ∨
    (f.op = 0x6 ∧ (f.var ≠ 0 ∨ f.acc ≠ 0 ∨ f.imm ≠ 0))

theorem exists_decodeFields_error_iff {f : CommandFields} (h : f.rsv = 0) :
    (∃ e, decodeFields f = .error e) ↔ IllegalFields f := by
  obtain ⟨op, stg, var, acc, rsv, imm⟩ := f
  obtain rfl : rsv = 0 := h
  cases op using op_cases with
  | reserved op unused =>
    exact ⟨fun _ => .inl unused, fun _ => ⟨_, decodeFields_reserved unused⟩⟩
  | _ =>
    refine exists_requireZero_error_iff.trans ?_
    simp [IllegalFields, imp_iff_not_or, or_assoc]

theorem exists_decode_error_iff (w : Word) :
    (∃ e, decode w = .error e) ↔ IllegalFields (fieldsOf w) := by
  unfold decode
  split
  next rsv_zero => exact exists_decodeFields_error_iff rsv_zero
  next rsv_ne => exact ⟨fun _ => .inr (.inl rsv_ne), fun _ => ⟨_, rfl⟩⟩

/-! ### The rows of the match and mask list, field by field -/

/-- The fields of a word under a mask, given the fields of both. -/
def CommandFields.masked (f m : CommandFields) : CommandFields where
  op := f.op &&& m.op
  stg := f.stg &&& m.stg
  var := f.var &&& m.var
  acc := f.acc &&& m.acc
  rsv := f.rsv &&& m.rsv
  imm := f.imm &&& m.imm

theorem fieldsOf_and (w m : Word) : fieldsOf (w &&& m) = (fieldsOf w).masked (fieldsOf m) := by
  simp [fieldsOf, CommandFields.masked, BitVec.extractLsb'_and]

/-- The row matches a word with these fields. -/
def OpcodeRow.Covers (row : OpcodeRow) (f : CommandFields) : Prop :=
  f.masked (fieldsOf row.mask) = fieldsOf row.pattern

theorem accepts_iff_covers (row : OpcodeRow) (w : Word) :
    row.accepts w = true ↔ row.Covers (fieldsOf w) := by
  rw [OpcodeRow.accepts, beq_iff_eq, OpcodeRow.Covers, ← fieldsOf_and]
  exact ⟨congrArg fieldsOf, eq_of_fieldsOf⟩

/-- Every row fixes the whole of OP. -/
theorem op_of_covers {row : OpcodeRow} {f : CommandFields} (mem : row ∈ opcodeRows)
    (h : row.Covers f) : f.op = opOf row.pattern := by
  have whole_op : ∀ row ∈ opcodeRows, opOf row.mask = BitVec.allOnes 4 := by decide
  have masked_op : f.op &&& opOf row.mask = opOf row.pattern := congrArg CommandFields.op h
  rwa [whole_op row mem, BitVec.and_allOnes] at masked_op

/-- Every row fixes RSV to 0. -/
theorem rsv_of_covers {row : OpcodeRow} {f : CommandFields} (mem : row ∈ opcodeRows)
    (h : row.Covers f) : f.rsv = 0 := by
  have whole_rsv : ∀ row ∈ opcodeRows, (fieldsOf row.mask).rsv = BitVec.allOnes 4 ∧
      (fieldsOf row.pattern).rsv = 0 := by decide
  obtain ⟨mask_rsv, pattern_rsv⟩ := whole_rsv row mem
  have masked_rsv : f.rsv &&& (fieldsOf row.mask).rsv = (fieldsOf row.pattern).rsv :=
    congrArg CommandFields.rsv h
  rwa [mask_rsv, pattern_rsv, BitVec.and_allOnes] at masked_rsv

/-- No two rows have the same OP, so no word matches both. -/
theorem opcodeRows_disjoint :
    opcodeRows.Pairwise fun a b => ∀ w : Word, ¬ (a.accepts w = true ∧ b.accepts w = true) := by
  have ops_differ : opcodeRows.Pairwise fun a b => opOf a.pattern ≠ opOf b.pattern := by decide
  refine ops_differ.imp_of_mem ?_
  rintro a b mem_a mem_b differ w ⟨accepted_a, accepted_b⟩
  rw [accepts_iff_covers] at accepted_a accepted_b
  exact differ ((op_of_covers mem_a accepted_a).symm.trans (op_of_covers mem_b accepted_b))

/-- With RSV 0, the one row of an OP in use asks of the other fields what R99 does. -/
theorem not_covered_iff (f : CommandFields) :
    (¬ ∃ row ∈ opcodeRows, row.Covers f) ↔ IllegalFields f := by
  by_cases rsv_zero : f.rsv = 0
  case neg =>
    exact ⟨fun _ => .inr (.inl rsv_zero),
      fun _ ⟨_, mem, covered⟩ => rsv_zero (rsv_of_covers mem covered)⟩
  obtain ⟨op, stg, var, acc, rsv, imm⟩ := f
  obtain rfl : rsv = 0 := rsv_zero
  cases op using op_cases with
  | reserved op unused =>
    have rows_in_use : ∀ row ∈ opcodeRows, (opOf row.pattern).toNat < 10 := by decide
    refine ⟨fun _ => .inl unused, ?_⟩
    rintro _ ⟨row, mem, covered⟩
    have same_op : op = opOf row.pattern := op_of_covers mem covered
    exact absurd (rows_in_use row mem) (by rw [← same_op]; omega)
  | _ =>
    have whole2 (x : BitVec 2) : x &&& 0x3#2 = x := BitVec.and_allOnes
    have whole1 (x : BitVec 1) : x &&& 0x1#1 = x := BitVec.and_allOnes
    have whole20 (x : BitVec 20) : x &&& 0xFFFFF#20 = x := BitVec.and_allOnes
    simp [opcodeRows, OpcodeRow.Covers, CommandFields.masked, fieldsOf, IllegalFields,
      whole2, whole1, whole20, imm_and_high_eq_zero_iff, imp_iff_not_or]

theorem wellFormedWord_eq_false_iff (w : Word) :
    wellFormedWord w = false ↔ IllegalFields (fieldsOf w) := by
  rw [← not_covered_iff, ← Bool.not_eq_true, wellFormedWord, List.any_eq_true]
  simp only [accepts_iff_covers]

/-- Settles O39: the fields R99 forbids are both what the decoder rejects and what no row of R92
matches; a rejected word raises ILL; and the rows differ in OP. -/
theorem illegalWordsExactly : Obligations.IllegalWordsExactly := by
  refine ⟨?by_fields, ?by_rows, ?raises_ill, opcodeRows_disjoint⟩
  case by_fields =>
    intro w
    rw [exists_decode_error_iff, IllegalFields, fieldsOf_imm_high]
    rfl
  case by_rows =>
    exact fun w => (exists_decode_error_iff w).trans (wellFormedWord_eq_false_iff w).symm
  case raises_ill =>
    rintro w ⟨e, illegal⟩ s
    exact (hostWrite_cmd w s).trans (runCommand_illegal s illegal)

end Sys2Proof
end

section
/-! PROOFS. F byte by byte, its bit relations and its difference relations (spec/41_transform.md
R120 to R122, R125, R126). -/

namespace Sys2Proof.Machine

open Sys2Proof.Claims

/-! ### rotl2 (R120) -/

theorem rotl2_toNat (a : Byte) : (rotl2 a).toNat = (a.toNat * 4 ||| a.toNat / 64) % 256 := by
  have ha : a.toNat / 64 < 2 ^ 8 := by omega
  rw [rotl2, BitVec.toNat_or, BitVec.toNat_shiftLeft, BitVec.toNat_ushiftRight,
    Nat.shiftLeft_eq, Nat.shiftRight_eq_div_pow]
  change _ = (a.toNat * 4 ||| a.toNat / 64) % 2 ^ 8
  rw [Nat.or_mod_two_pow, Nat.mod_eq_of_lt ha]

/-- The two shifts overlap nowhere: bits 1:0 come from the right shift, the others from the left. -/
theorem getLsbD_rotl2 (a : Byte) {i : Nat} (hi : i < 8) :
    (rotl2 a).getLsbD i = a.getLsbD ((i + 6) % 8) := by
  rw [rotl2, BitVec.getLsbD_or, BitVec.getLsbD_shiftLeft, BitVec.getLsbD_ushiftRight]
  by_cases low : i < 2
  · have wraps : (i + 6) % 8 = 6 + i := by omega
    simp [wraps, low]
  · have moves : (i + 6) % 8 = i - 2 := by omega
    have shifted_out : a.getLsbD (6 + i) = false := BitVec.getLsbD_of_ge _ _ (by omega)
    simp [moves, low, hi, shifted_out]

/-- Settles O3: the value of rotl2 and its bits, and the rule's four examples. -/
theorem rotateLeftByTwo : Obligations.RotateLeftByTwo :=
  ⟨fun a => ⟨rotl2_toNat a, fun _ => getLsbD_rotl2 a⟩, by decide⟩

/-! ### sub0 and sub1 (R121) -/

theorem sub0_eq_rotl2_ofNat (a b : Byte) :
    sub0 a b = rotl2 (BitVec.ofNat 8 ((a.toNat + b.toNat) % 256)) := by
  have sum : a + b = BitVec.ofNat 8 ((a.toNat + b.toNat) % 256) := by bv_omega
  rw [sub0, sum]

theorem sub1_eq_rotl2_ofNat (a b : Byte) :
    sub1 a b = rotl2 (BitVec.ofNat 8 ((a.toNat + b.toNat + 1) % 256)) := by
  have sum : a + b + 1 = BitVec.ofNat 8 ((a.toNat + b.toNat + 1) % 256) := by bv_omega
  rw [sub1, sum]

/-- Settles O4: a sum of bytes is the sum of their values modulo 256; and the rule's corner
cases. -/
theorem byteSumsDropTheCarry : Obligations.ByteSumsDropTheCarry :=
  ⟨fun a b => ⟨sub0_eq_rotl2_ofNat a b, sub1_eq_rotl2_ofNat a b⟩, by decide⟩

/-! ### The bytes of F (R122) -/

/-- Settles O5: each byte of F(x) is the output byte of that place, and a word is its four bytes. -/
theorem transformByteByByte : Obligations.TransformByteByByte := by
  intro x
  refine ⟨?o1, ?o0, ?o2, ?o3, (cat8_bytes (F x)).symm⟩
  case o1 => rw [byte1_F, o1Of]
  case o0 => rw [byte0_F, byte1_F, o0Of]
  case o2 => rw [byte2_F, byte1_F, o2Of]
  case o3 => rw [byte3_F, byte2_F, o3Of]

/-! ### The exact bit relations of F (R125) -/

/-- The document's positions in the byte each lies in. -/
theorem bitAt_eq_byte_bit (p : Nat) (v : Word) :
    bitAt p v =
      if p < 8 then (byte0 v).getLsbD (7 - p) else if p < 16 then (byte1 v).getLsbD (15 - p)
      else if p < 24 then (byte2 v).getLsbD (23 - p) else (byte3 v).getLsbD (31 - p) := by
  simp only [bitAt, byte0, byte1, byte2, byte3, BitVec.getLsbD_extractLsb']
  split_ifs with in0 in1 in2
  · rw [decide_eq_true (by omega), Bool.true_and, show 24 + (7 - p) = 31 - p by omega]
  · rw [decide_eq_true (by omega), Bool.true_and, show 16 + (15 - p) = 31 - p by omega]
  · rw [decide_eq_true (by omega), Bool.true_and, show 8 + (23 - p) = 31 - p by omega]
  · rw [decide_eq_true (by omega), Bool.true_and, Nat.zero_add]

/-- No carry enters bit 0 of a sum. -/
theorem getLsbD_zero_add (a b : Byte) : (a + b).getLsbD 0 = (a.getLsbD 0 ^^ b.getLsbD 0) := by
  rw [BitVec.getLsbD_add (by decide), BitVec.carry_zero, Bool.xor_false]

/-- rotl2 moves bit 0 of the sum to bit 2. -/
theorem getLsbD_two_sub0 (a b : Byte) : (sub0 a b).getLsbD 2 = (a.getLsbD 0 ^^ b.getLsbD 0) := by
  rw [sub0, getLsbD_rotl2 _ (by decide), getLsbD_zero_add]

theorem getLsbD_two_sub1 (a b : Byte) :
    (sub1 a b).getLsbD 2 = (a.getLsbD 0 ^^ b.getLsbD 0 ^^ true) := by
  rw [sub1, getLsbD_rotl2 _ (by decide), getLsbD_zero_add, getLsbD_zero_add]
  rfl

/-- Bit 2 of o1. -/
theorem bitAt_13_F (x : Word) :
    bitAt 13 (F x) = (bitAt 15 x ^^ bitAt 7 x ^^ (bitAt 23 x ^^ bitAt 31 x) ^^ true) := by
  simp only [bitAt_eq_byte_bit, Nat.reduceLT, Nat.reduceSub, reduceIte, byte1_F, o1Of,
    getLsbD_two_sub1, BitVec.getLsbD_xor]

/-- Bit 2 of o0, which depends on o1. -/
theorem bitAt_5_F (x : Word) : bitAt 5 (F x) = (bitAt 7 x ^^ bitAt 15 (F x)) := by
  simp only [bitAt_eq_byte_bit, Nat.reduceLT, Nat.reduceSub, reduceIte, byte0_F, byte1_F, o0Of,
    getLsbD_two_sub0]

/-- Bit 2 of o2, which depends on o1. -/
theorem bitAt_21_F (x : Word) :
    bitAt 21 (F x) = (bitAt 15 (F x) ^^ (bitAt 23 x ^^ bitAt 31 x)) := by
  simp only [bitAt_eq_byte_bit, Nat.reduceLT, Nat.reduceSub, reduceIte, byte1_F, byte2_F, o2Of,
    getLsbD_two_sub0, BitVec.getLsbD_xor]

/-- Bit 2 of o3, which depends on o2. -/
theorem bitAt_29_F (x : Word) : bitAt 29 (F x) = (bitAt 23 (F x) ^^ bitAt 31 x ^^ true) := by
  simp only [bitAt_eq_byte_bit, Nat.reduceLT, Nat.reduceSub, reduceIte, byte2_F, byte3_F, o3Of,
    getLsbD_two_sub1]

/-- Settles O6: with bit 2 of each output byte written out, what a relation's two sides do not share
cancels. Relation (e) is the XOR of (a), (b) and (c). -/
theorem transformBitRelations : Obligations.TransformBitRelations := by
  intro x
  have a : bitsAt [13] (F x) = (bitsAt [7, 15, 23, 31] x ^^ true) := by
    simp only [bitsAt, bitAt_13_F]
    grind
  have b : bitsAt [5, 15] (F x) = bitsAt [7] x := by
    simp only [bitsAt, bitAt_5_F]
    grind
  have c : bitsAt [15, 21] (F x) = bitsAt [23, 31] x := by
    simp only [bitsAt, bitAt_21_F]
    grind
  have d : bitsAt [23, 29] (F x) = (bitsAt [31] x ^^ true) := by
    simp only [bitsAt, bitAt_29_F]
    grind
  have e : bitsAt [5, 13, 21] (F x) = (bitsAt [15] x ^^ true) := by
    have sum : bitsAt [5, 13, 21] (F x) =
        (bitsAt [13] (F x) ^^ bitsAt [5, 15] (F x) ^^ bitsAt [15, 21] (F x)) := by
      simp only [bitsAt]
      grind
    rw [sum, a, b, c]
    simp only [bitsAt]
    grind
  exact ⟨a, b, c, d, e⟩

/-! ### The difference relations of F and the equivalent subkeys (R126) -/

/-- Flipping bit 7 of an operand flips bit 7 of the sum, which rotl2 moves to bit 1. -/
theorem sub0_xor_top (a b : Byte) : sub0 (a ^^^ 0x80) b = sub0 a b ^^^ 0x02 := by
  rw [sub0, xor_top_add, rotl2_xor_top, sub0]

theorem sub1_xor_top_right (a b : Byte) : sub1 a (b ^^^ 0x80) = sub1 a b ^^^ 0x02 := by
  rw [sub1, BitVec.add_comm a, BitVec.add_assoc, xor_top_add, rotl2_xor_top, ← BitVec.add_assoc,
    BitVec.add_comm b, sub1]

/-- Differences of two operands of an XOR cancel. -/
theorem xor_xor_xor_cancel {n : Nat} (a b d : BitVec n) : (a ^^^ d) ^^^ (b ^^^ d) = a ^^^ b := by
  rw [BitVec.xor_assoc, BitVec.xor_comm b d, ← BitVec.xor_assoc d d b, BitVec.xor_self,
    BitVec.zero_xor]

/-- A difference that b0 and b1 share and one that b2 and b3 share do not reach o1. -/
theorem o1Of_xor_cat8 (x : Word) (e e' : Byte) : o1Of (x ^^^ cat8 e e e' e') = o1Of x := by
  rw [o1Of, byte0_xor, byte1_xor, byte2_xor, byte3_xor, byte0_cat8, byte1_cat8, byte2_cat8,
    byte3_cat8, xor_xor_xor_cancel, xor_xor_xor_cancel, o1Of]

theorem o2Of_xor_cat8 (x : Word) (e e' : Byte) : o2Of (x ^^^ cat8 e e e' e') = o2Of x := by
  rw [o2Of, o1Of_xor_cat8, byte2_xor, byte3_xor, byte2_cat8, byte3_cat8, xor_xor_xor_cancel, o2Of]

/-- Such differences reach F(x) only by b0, an operand of o0, and by b3, an operand of o3. -/
theorem F_xor_cat8 {e d e' d' : Byte} (x : Word)
    (sum0 : ∀ a b, sub0 (a ^^^ e) b = sub0 a b ^^^ d)
    (sum3 : ∀ a b, sub1 a (b ^^^ e') = sub1 a b ^^^ d') :
    F (x ^^^ cat8 e e e' e') = F x ^^^ cat8 d 0 0 d' := by
  apply eq_of_bytes
  · rw [byte0_xor, byte0_F, byte0_F, byte0_cat8, o0Of, o1Of_xor_cat8, byte0_xor, byte0_cat8, sum0,
      o0Of]
  · rw [byte1_xor, byte1_F, byte1_F, byte1_cat8, o1Of_xor_cat8]
    exact BitVec.xor_zero.symm
  · rw [byte2_xor, byte2_F, byte2_F, byte2_cat8, o2Of_xor_cat8]
    exact BitVec.xor_zero.symm
  · rw [byte3_xor, byte3_F, byte3_F, byte3_cat8, o3Of, o2Of_xor_cat8, byte3_xor, byte3_cat8, sum3,
      o3Of]

theorem F_xor_high (x : Word) : F (x ^^^ 0x80800000) = F x ^^^ 0x02000000 := by
  have input_bytes : (0x80800000 : Word) = cat8 0x80 0x80 0 0 := by decide
  have output_bytes : (0x02000000 : Word) = cat8 0x02 0 0 0 := by decide
  rw [input_bytes, output_bytes]
  exact F_xor_cat8 x sub0_xor_top (by simp)

theorem F_xor_low (x : Word) : F (x ^^^ 0x00008080) = F x ^^^ 0x00000002 := by
  have input_bytes : (0x00008080 : Word) = cat8 0 0 0x80 0x80 := by decide
  have output_bytes : (0x00000002 : Word) = cat8 0 0 0 0x02 := by decide
  rw [input_bytes, output_bytes]
  exact F_xor_cat8 x (by simp) sub1_xor_top_right

/-- A difference of the left half that the subkey cancels stays in the half the round passes on. -/
theorem decryptRound_left_xor (l r k d : Word) :
    decryptRound ⟨l ^^^ d, r⟩ (k ^^^ d) =
      { decryptRound ⟨l, r⟩ k with right := (decryptRound ⟨l, r⟩ k).right ^^^ d } := by
  rw [decryptRound, xor_xor_xor_cancel]
  rfl

/-- A difference of the right half passes to the left. -/
theorem decryptRound_right_xor (l r k d : Word) :
    decryptRound ⟨l, r ^^^ d⟩ k =
      { decryptRound ⟨l, r⟩ k with left := (decryptRound ⟨l, r⟩ k).left ^^^ d } := by
  simp only [decryptRound, BitVec.xor_assoc, BitVec.xor_comm d]

/-- The last round cancels a difference of the right half that its subkey makes F give again. -/
theorem decryptRound_right_xor_cancel {d e : Word} (hF : ∀ x, F (x ^^^ e) = F x ^^^ d)
    (l r k : Word) : decryptRound ⟨l, r ^^^ d⟩ (k ^^^ e) = decryptRound ⟨l, r⟩ k := by
  simp only [decryptRound, ← BitVec.xor_assoc l, hF, xor_xor_xor_cancel]

theorem whiten_xor_k5 (c : Block) (k4 k5 d : Word) :
    whiten c k4 (k5 ^^^ d) = { whiten c k4 k5 with left := (whiten c k4 k5).left ^^^ d } := by
  simp only [whiten, BitVec.xor_assoc]

/-- The difference enters with K5, K3 and K1 cancel it where it would reach F, and K0 removes it. -/
theorem decryptBlock_twin {d e : Word} (hF : ∀ x, F (x ^^^ e) = F x ^^^ d) (c : Block)
    (k : Subkeys) :
    decryptBlock c { k with
      k0 := k.k0 ^^^ e, k1 := k.k1 ^^^ d, k3 := k.k3 ^^^ d, k5 := k.k5 ^^^ d } =
      decryptBlock c k := by
  simp only [decryptBlock, List.foldl_cons, List.foldl_nil, whiten_xor_k5, decryptRound_left_xor,
    decryptRound_right_xor, decryptRound_right_xor_cancel hF]

/-- Settles O7: the two relations, and the first of them makes the tuple's differences cancel. -/
theorem transformDifferencesAndTwinKeys : Obligations.TransformDifferencesAndTwinKeys :=
  ⟨fun x => ⟨F_xor_high x, F_xor_low x⟩, decryptBlock_twin F_xor_high⟩

end Sys2Proof.Machine
end

section
/-! PROOFS. XFORM, and that a word no command encodes to is illegal (spec/41_transform.md R124,
spec/30_encoding.md R99). -/

namespace Sys2Proof

open Sys2Proof.Machine Sys2Proof.Claims

theorem runsAs_of_decode {w : Word} {i : Instr} (h : decode w = .ok i) : RunsAs w i :=
  ⟨h, fun s => (hostWrite_cmd w s).trans (runCommand_legal s h)⟩

/-- A word that no command encodes to is illegal. -/
theorem raisesIll_of_forall_encode_ne {w : Word} (h : ∀ i, encode i ≠ w) : RaisesIll w := by
  intro s
  rw [show (0x7C : BitVec 7) = regOffset .cmd from rfl, hostWrite_cmd]
  cases decoded : decode w with
  | ok i => exact absurd (encode_of_decode decoded) (h i)
  | error e => exact runCommand_illegal s decoded

/-- OP of an assembled word (30_encoding.md R91). -/
theorem opOf_assembleWord (op : BitVec 4) (stg : BitVec 2) (var acc : BitVec 1)
    (imm : BitVec 20) : opOf (assembleWord op stg var acc imm) = op :=
  congrArg CommandFields.op (fieldsOf_assembleWord op stg var acc imm)

/-- XFORM is the one command with OP 1. -/
theorem eq_xform_of_opOf_encode {i : Instr} (h : opOf (encode i) = 0x1) : i = .xform := by
  cases i <;> simp_all [encode, opOf_assembleWord]

/-- Settles O11: 0x10000000 is the only word whose OP is 1 and that a command encodes to. -/
theorem xformRule : Obligations.XformRule := by
  refine ⟨runsAs_of_decode rfl, exec_eq_effect .xform, ?illegal, by decide⟩
  case illegal =>
    rintro _ op other
    apply raisesIll_of_forall_encode_ne
    rintro i rfl
    rw [eq_xform_of_opOf_encode op] at other
    exact other rfl

end Sys2Proof
end

section
/-! PROOFS. Decryption and the derived encryption round by round, that each undoes the other, and the
DECRYPT commands (spec/42_decrypt.md R140 to R144, spec/45_filter.md R212). -/

namespace Sys2Proof.Machine

open Sys2Proof.Claims

/-! ### Decryption round by round (R140, R141) -/

/-- Settles O8: the whitening, and the round function applied with each subkey in turn. -/
theorem decryptionRoundByRound : Obligations.DecryptionRoundByRound := by
  intro c k
  refine ⟨?whitening, ?rounds⟩
  case whitening => rw [whiten]
  case rounds =>
    simp only [decryptBlock, List.foldl_cons, List.foldl_nil, whiten, decryptRound, foldRight]

/-! ### Encryption round by round and in its round outputs (R144) -/

theorem foldRight_eq (b : Block) : foldRight b = { left := b.left, right := b.left ^^^ b.right } := by
  rw [foldRight, BitVec.xor_comm]

/-- The input of F in each round is the document's for that round output (46_derive.md R230). -/
theorem encryptRounds_eq_ys (p : Block) (k : Subkeys) :
    [k.k0, k.k1, k.k2, k.k3].foldl encryptRound (foldRight p) =
      let y := ys p.left p.right k.k0 k.k1 k.k2 k.k3
      { left := p.left ^^^ y.y0 ^^^ y.y2, right := p.left ^^^ p.right ^^^ y.y1 ^^^ y.y3 } := by
  simp only [foldRight_eq, List.foldl_cons, List.foldl_nil, encryptRound, ys_y0, ys_y1, ys_y2,
    ys_y3, y0Of, y1Of, y2Of, y3Of]

theorem encryptBlock_left (p : Block) (k : Subkeys) :
    (encryptBlock p k).left =
      let y := ys p.left p.right k.k0 k.k1 k.k2 k.k3
      p.left ^^^ p.right ^^^ y.y1 ^^^ y.y3 ^^^ k.k4 := by
  rw [encryptBlock, encryptRounds_eq_ys, unwhiten]

/-- The left half of the plaintext is in both halves after the last round, so it cancels. -/
theorem encryptBlock_right (p : Block) (k : Subkeys) :
    (encryptBlock p k).right =
      let y := ys p.left p.right k.k0 k.k1 k.k2 k.k3
      p.right ^^^ y.y0 ^^^ y.y1 ^^^ y.y2 ^^^ y.y3 ^^^ k.k5 := by
  have cancels (l r a b c d : Word) :
      l ^^^ a ^^^ c ^^^ (l ^^^ r ^^^ b ^^^ d) = r ^^^ a ^^^ b ^^^ c ^^^ d :=
    calc l ^^^ a ^^^ c ^^^ (l ^^^ r ^^^ b ^^^ d)
        = l ^^^ (l ^^^ (r ^^^ a ^^^ b ^^^ c ^^^ d)) := by ac_rfl
      _ = r ^^^ a ^^^ b ^^^ c ^^^ d := xor_cancel_left _ _
  rw [encryptBlock, encryptRounds_eq_ys, unwhiten]
  exact congrArg (· ^^^ k.k5) (cancels ..)

/-! ### What undoes each part of the cipher (R144) -/

theorem foldRight_foldRight (b : Block) : foldRight (foldRight b) = b := by
  simp only [foldRight, xor_cancel_right]

theorem decryptRound_encryptRound (b : Block) (k : Word) :
    decryptRound (encryptRound b k) k = b := by
  simp only [decryptRound, encryptRound, xor_cancel_right]

theorem encryptRound_decryptRound (b : Block) (k : Word) :
    encryptRound (decryptRound b k) k = b := by
  simp only [decryptRound, encryptRound, xor_cancel_right]

theorem whiten_unwhiten (b : Block) (k4 k5 : Word) : whiten (unwhiten b k4 k5) k4 k5 = b := by
  simp only [whiten, unwhiten, ← BitVec.xor_assoc, xor_cancel_right, xor_xor_cancel_comm]

theorem unwhiten_whiten (c : Block) (k4 k5 : Word) : unwhiten (whiten c k4 k5) k4 k5 = c := by
  have right_half : c.left ^^^ k4 ^^^ c.right ^^^ k5 ^^^ (c.left ^^^ k4) ^^^ k5 = c.right := by
    rw [BitVec.xor_assoc (c.left ^^^ k4), xor_xor_cancel_comm, xor_cancel_right]
  simp only [whiten, unwhiten, xor_cancel_right, right_half]

/-- Rounds are undone one by one, the last one first. -/
theorem foldl_reverse_foldl {β κ : Type} {round undo : β → κ → β}
    (undoes : ∀ b k, undo (round b k) k = b) (keys : List κ) (b : β) :
    keys.reverse.foldl undo (keys.foldl round b) = b := by
  induction keys generalizing b with
  | nil => rfl
  | cons k keys ih =>
    rw [List.foldl_cons, List.reverse_cons, List.foldl_append, ih, List.foldl_cons, List.foldl_nil,
      undoes]

theorem decryptBlock_encryptBlock (p : Block) (k : Subkeys) :
    decryptBlock (encryptBlock p k) k = p := by
  have rounds : [k.k3, k.k2, k.k1, k.k0].foldl decryptRound
      ([k.k0, k.k1, k.k2, k.k3].foldl encryptRound (foldRight p)) = foldRight p :=
    foldl_reverse_foldl decryptRound_encryptRound [k.k0, k.k1, k.k2, k.k3] _
  rw [decryptBlock, encryptBlock, whiten_unwhiten, rounds, foldRight_foldRight]

theorem encryptBlock_decryptBlock (c : Block) (k : Subkeys) :
    encryptBlock (decryptBlock c k) k = c := by
  have rounds : [k.k0, k.k1, k.k2, k.k3].foldl encryptRound
      ([k.k3, k.k2, k.k1, k.k0].foldl decryptRound (whiten c k.k4 k.k5)) = whiten c k.k4 k.k5 :=
    foldl_reverse_foldl encryptRound_decryptRound [k.k3, k.k2, k.k1, k.k0] _
  rw [encryptBlock, decryptBlock, foldRight_foldRight, rounds, unwhiten_whiten]

/-- Settles O9: the rounds of encryption written out and in the round outputs; and each part of
encryption is undone by the part of decryption in the mirrored place. -/
theorem encryptionInvertsDecryption : Obligations.EncryptionInvertsDecryption := by
  intro b k
  refine ⟨?rounds, ⟨encryptBlock_left b k, encryptBlock_right b k⟩, decryptBlock_encryptBlock b k,
    encryptBlock_decryptBlock b k⟩
  case rounds =>
    simp only [encryptBlock, foldRight_eq, List.foldl_cons, List.foldl_nil, encryptRound, unwhiten]

/-! ### DECRYPT and DECRYPT.A (R142, R212) -/

theorem decryptMatches_eq_decide (s : State) :
    s.decryptMatches = decide (s.decrypted.left = s.pl ∧ s.decrypted.right = s.pr) :=
  (Bool.decide_and _ _).symm

theorem exec_decrypt (s : State) :
    exec .decrypt s = .next { s with
      dl := s.decrypted.left
      dr := s.decrypted.right
      filt := { s.filt with
        matched := decide (s.decrypted.left = s.pl ∧ s.decrypted.right = s.pr) } } := by
  rw [← decryptMatches_eq_decide]
  exact exec_eq_effect .decrypt s

theorem exec_decryptA (s : State) :
    exec .decryptA s = .next { s with
      dl := s.decrypted.left
      dr := s.decrypted.right
      filt := { s.filt with
        matched := decide (s.decrypted.left = s.pl ∧ s.decrypted.right = s.pr)
        vok := s.filt.vok && decide (s.decrypted.left = s.pl ∧ s.decrypted.right = s.pr) } } := by
  rw [← decryptMatches_eq_decide]
  exact exec_eq_effect .decryptA s

/-- DECRYPT with the subkeys of the loaded pair gives the plaintext and a match. -/
theorem exec_decrypt_of_decrypted_eq {s : State} (h : s.decrypted = s.plainBlock) :
    exec .decrypt s =
      .next { s with dl := s.pl, dr := s.pr, filt := { s.filt with matched := true } } := by
  have left_half : s.decrypted.left = s.pl := congrArg Block.left h
  have right_half : s.decrypted.right = s.pr := congrArg Block.right h
  rw [exec_decrypt, left_half, right_half, decide_eq_true ⟨rfl, rfl⟩]

/-- The two forms of DECRYPT are the commands with OP 2. -/
theorem eq_decrypt_or_decryptA_of_opOf_encode {i : Instr} (h : opOf (encode i) = 0x2) :
    i = .decrypt ∨ i = .decryptA := by
  cases i <;> simp_all [encode, opOf_assembleWord]

/-- The document's corner case. -/
theorem decryptBlock_zero :
    decryptBlock ⟨0, 0⟩ ⟨0, 0, 0, 0, 0, 0⟩ = ⟨0xFFE37998, 0xFBC873F3⟩ := by decide

/-- The document's example. -/
theorem decryptBlock_testKey : decryptBlock ⟨0xF4C3198E, 0x39073A30⟩ testKey = ⟨0, 0⟩ := by decide

/-- Settles O12: both forms from every state; no command encodes to another word with OP 2; and the
example is a loaded pair that its key decrypts. -/
theorem decryptRule : Obligations.DecryptRule := by
  refine ⟨runsAs_of_decode rfl, runsAs_of_decode rfl, fun s => ⟨exec_decrypt s, exec_decryptA s⟩,
    ?illegal, decryptBlock_zero, decryptBlock_testKey, ?known_pair⟩
  case illegal =>
    rintro _ op not_decrypt not_decryptA
    apply raisesIll_of_forall_encode_ne
    rintro i rfl
    rcases eq_decrypt_or_decryptA_of_opOf_encode op with rfl | rfl
    · exact not_decrypt rfl
    · exact not_decryptA rfl
  case known_pair =>
    intro s hpl hpr hcl hcr hkey
    have decrypted : s.decrypted = s.plainBlock := by
      rw [State.decrypted, State.cipherBlock, State.plainBlock, hpl, hpr, hcl, hcr, hkey,
        decryptBlock_testKey]
    rw [exec_decrypt_of_decrypted_eq decrypted, hpl, hpr]

end Sys2Proof.Machine
end

section
/-! PROOFS. The default evaluator table in the document's bit positions, the evaluator datapath for
every table, and when a table conforms (spec/43_evaluate.md R160 to R164, spec/00_scope.md R7). -/

namespace Sys2Proof.Machine

open Sys2Proof.Claims

/-! ### Masks of bit positions (R7) -/

theorem getLsbD_posMask {p : Nat} (hp : p < 32) {ps : List Nat} (hps : ∀ q ∈ ps, q < 32) :
    (posMask ps).getLsbD (31 - p) = decide (p ∈ ps) := by
  induction ps with
  | nil => simp [posMask]
  | cons q ps ih =>
    obtain ⟨hq, hps⟩ := List.forall_mem_cons.mp hps
    have same_bit : 31 - q = 31 - p ↔ p = q := by omega
    have in_word : 31 - q < 32 := by omega
    simp [posMask, BitVec.getLsbD_twoPow, ih hps, same_bit, in_word]

/-- Setting a bit that is not set is flipping it. -/
theorem twoPow_or_eq_xor {i : Nat} {m : Word} (h : m.getLsbD i = false) :
    BitVec.twoPow 32 i ||| m = BitVec.twoPow 32 i ^^^ m := by
  apply BitVec.eq_of_getLsbD_eq
  intro j _
  rw [BitVec.getLsbD_or, BitVec.getLsbD_xor, BitVec.getLsbD_twoPow]
  by_cases hij : i = j
  · rw [← hij, h, Bool.or_false, Bool.xor_false]
  · rw [decide_eq_false hij, Bool.and_false, Bool.false_or, Bool.false_xor]

theorem par_twoPow {i : Nat} (hi : i < 32) : par (BitVec.twoPow 32 i) = true := by
  interval_cases i <;> rfl

/-- The parity under a mask of one position is the bit there. -/
theorem par_twoPow_and {p : Nat} (hp : p < 32) (v : Word) :
    par (BitVec.twoPow 32 (31 - p) &&& v) = bitAt p v := by
  rw [BitVec.twoPow_and, bitAt]
  cases v.getLsbD (31 - p) with
  | true => exact par_twoPow (by omega)
  | false => exact par_zero

/-- The parity of a masked word is linear in the mask. -/
theorem par_xor_and (m n v : Word) : par ((m ^^^ n) &&& v) = (par (m &&& v) ^^ par (n &&& v)) := by
  rw [BitVec.and_comm, par_and_xor, BitVec.and_comm v, BitVec.and_comm v]

/-- The parity under a mask of distinct positions is the XOR of the bits there. -/
theorem par_posMask_and {ps : List Nat} (hps : ∀ p ∈ ps, p < 32) (nodup : ps.Nodup) (v : Word) :
    par (posMask ps &&& v) = bitsAt ps v := by
  induction ps with
  | nil => exact par_zero_and v
  | cons p ps ih =>
    obtain ⟨hp, hps⟩ := List.forall_mem_cons.mp hps
    obtain ⟨fresh, nodup⟩ := List.nodup_cons.mp nodup
    have unset : (posMask ps).getLsbD (31 - p) = false := by
      rw [getLsbD_posMask hp hps, decide_eq_false fresh]
    rw [posMask, twoPow_or_eq_xor unset, par_xor_and, par_twoPow_and hp, ih hps nodup, bitsAt]

/-! ### The default table by variant (R163) -/

/-- The positions of F's output in the bit relation of F that a default evaluator is built on:
R125(e) for the inner ones, R125(a) for the outer ones. -/
def relationOutput : Variant → List Nat
  | .inner => [5, 13, 21]
  | .outer => [13]

/-- The positions of F's input in that relation. -/
def relationInput : Variant → List Nat
  | .inner => [15]
  | .outer => [7, 15, 23, 31]

theorem bitsAt_relationOutput_F (v : Variant) (x : Word) :
    bitsAt (relationOutput v) (F x) = (bitsAt (relationInput v) x ^^ true) := by
  obtain ⟨outer_relation, _, _, _, inner_relation⟩ := transformBitRelations x
  cases v with
  | inner => exact inner_relation
  | outer => exact outer_relation

theorem par_relationOutput_and (v : Variant) (w : Word) :
    par (posMask (relationOutput v) &&& w) = bitsAt (relationOutput v) w := by
  cases v <;> exact par_posMask_and (by decide) (by decide) w

theorem par_relationInput_and (v : Variant) (w : Word) :
    par (posMask (relationInput v) &&& w) = bitsAt (relationInput v) w := by
  cases v <;> exact par_posMask_and (by decide) (by decide) w

/-- The row of a stage, from the masks of the relation's output and input positions. -/
def defaultRow (out inp : Word) : Stage → ApproxEntry
  | .k0 => ⟨out ^^^ inp, out, out ^^^ inp, inp, 0, 0, 0, inp, 0b00011⟩
  | .k1 => ⟨out ^^^ inp, inp, out, out, out, 0, 0, inp, 0b00101⟩
  | .k2 => ⟨inp, 0, inp, inp, inp, 0, 0, inp, 0b01011⟩
  | .k3 => ⟨inp, inp, inp, 0, 0, inp, 0, inp, 0b10101⟩

theorem approxEntry_default (stage : Stage) (v : Variant) :
    approxEntry defaultApprox stage v =
      defaultRow (posMask (relationOutput v)) (posMask (relationInput v)) stage := by
  cases stage <;> cases v <;> decide

/-- The transform input of a stage, for either variant. -/
def stageInput (p : Pair) (y : EvalOutputs) : Stage → Word
  | .k0 => p.pl ^^^ p.pr
  | .k1 => p.pl ^^^ y.y0
  | .k2 => p.pl ^^^ p.pr ^^^ y.y1
  | .k3 => p.pl ^^^ y.y0 ^^^ y.y2

theorem transformInput_default (stage : Stage) (v : Variant) (p : Pair) (y : EvalOutputs) :
    transformInput (approxEntry defaultApprox stage v) p y = stageInput p y stage := by
  rw [approxEntry_default]
  cases stage <;> simp [transformInput, defaultRow, stageInput]

/-- The bit a default evaluator takes from the pair and the round outputs alone. -/
def directBit (v : Variant) (p : Pair) (y : EvalOutputs) : Stage → Bool
  | .k0 => bitsAt (relationOutput v) (p.pl ^^^ p.pr ^^^ p.cl) ^^
      bitsAt (relationInput v) (p.pl ^^^ p.cl ^^^ p.cr)
  | .k1 => bitsAt (relationOutput v) (p.pl ^^^ p.cl ^^^ p.cr ^^^ y.y0) ^^
      bitsAt (relationInput v) (p.pl ^^^ p.pr)
  | .k2 => bitsAt (relationInput v) (p.pl ^^^ p.cl ^^^ p.cr ^^^ y.y0)
  | .k3 => bitsAt (relationInput v) (p.pl ^^^ p.pr ^^^ p.cl ^^^ y.y1)

theorem directParity_default (stage : Stage) (v : Variant) (p : Pair) (y : EvalOutputs) :
    directParity (approxEntry defaultApprox stage v) p y = directBit v p y stage := by
  rw [approxEntry_default]
  cases stage <;>
    simp only [directParity, defaultRow, directBit, par_xor_and, par_relationOutput_and,
      par_relationInput_and, bitsAt_xor, par_zero_and] <;>
    grind

/-- Each default evaluator in the document's bit positions. -/
theorem defaultBit_eq (stage : Stage) (v : Variant) (p : Pair) (k0 k1 k2 cand : Word) :
    defaultBit stage v p k0 k1 k2 cand =
      (directBit v p (evalOutputs p k0 k1 k2) stage ^^
        bitsAt (relationInput v) (F (stageInput p (evalOutputs p k0 k1 k2) stage ^^^ cand))) := by
  have mask : (approxEntry defaultApprox stage v).mT = posMask (relationInput v) := by
    rw [approxEntry_default]
    cases stage <;> rfl
  rw [defaultBit, evalBit, directParity_default, transformParity, transformInput_default, mask,
    par_relationInput_and]

/-- The round output a stage's evaluators approximate. -/
def stageOutput (y : RoundOutputs) : Stage → Word
  | .k0 => y.y0
  | .k1 => y.y1
  | .k2 => y.y2
  | .k3 => y.y3

/-- With the subkey of the stage as the candidate the transform gives the round output of the stage
(46_derive.md R230). -/
theorem F_stageInput_stageKey (stage : Stage) (p : Pair) (k : Subkeys) :
    F (stageInput p (evalOutputs p k.k0 k.k1 k.k2) stage ^^^ stageKey k stage) =
      stageOutput (ys p.pl p.pr k.k0 k.k1 k.k2 k.k3) stage := by
  cases stage <;> rfl

/-- Settles O22: the masks are those of the positions of R125's relations, from which the rows, the
transform inputs and the evaluators are read off. -/
theorem defaultEvaluatorTable : Obligations.DefaultEvaluatorTable := by
  refine ⟨by decide, ?round_outputs, ?positions⟩
  case round_outputs =>
    intro stage v p k
    rw [transformInput_default, F_stageInput_stageKey]
    cases stage <;> rfl
  case positions =>
    intro p k0 k1 k2 cand
    exact ⟨defaultBit_eq .k0 .inner .., defaultBit_eq .k0 .outer .., defaultBit_eq .k1 .inner ..,
      defaultBit_eq .k1 .outer .., defaultBit_eq .k2 .inner .., defaultBit_eq .k2 .outer ..,
      defaultBit_eq .k3 .inner .., defaultBit_eq .k3 .outer ..⟩

/-! ### The datapath for every table entry (R160 to R162) -/

/-- Settles O21: the bit is by definition the XOR of the direct and the transform parity, and the
evaluator takes its round outputs from the pair and K0..K2, not from the Y registers. -/
theorem evaluatorDatapath : Obligations.EvaluatorDatapath := by
  refine ⟨?bit, ?registers⟩
  case bit =>
    intro e p k0 k1 k2 cand
    rw [evalBit, directParity, transformParity, transformInput]
    rfl
  case registers =>
    intro s a b c d stage v
    rw [State.evaluator, State.pair]
    rfl

/-! ### Conformance (R164) -/

theorem entryConforms_iff (s : Stage) (e : ApproxEntry) :
    entryConforms s e = true ↔
      (stageNumber s ≤ 0 → e.mY0 = 0 ∧ e.tin.getLsbD 2 = false) ∧
      (stageNumber s ≤ 1 → e.mY1 = 0 ∧ e.tin.getLsbD 3 = false) ∧
      (stageNumber s ≤ 2 → e.mY2 = 0 ∧ e.tin.getLsbD 4 = false) ∧ e.mT ≠ 0 := by
  simp only [entryConforms, Bool.and_eq_true, Bool.or_eq_true, decide_eq_true_eq, beq_iff_eq,
    bne_iff_ne, Bool.not_eq_true', ← not_lt, ← or_iff_not_imp_left, and_assoc]

theorem tableConforms_iff (table : ApproxTable) :
    tableConforms table = true ↔
      ∀ (stage : Stage) (v : Variant), entryConforms stage (approxEntry table stage v) = true := by
  have every_stage (stage : Stage) : stage ∈ [Stage.k0, .k1, .k2, .k3] := by
    cases stage <;> decide
  have every_variant (v : Variant) : v ∈ [Variant.inner, .outer] := by cases v <;> decide
  simp only [tableConforms, List.all_eq_true, every_stage, every_variant, forall_const]

/-- Settles O23: the lists that conformance runs over hold every stage and variant. -/
theorem conformanceOfTables : Obligations.ConformanceOfTables := by
  refine ⟨by decide, fun table => (tableConforms_iff table).trans ?_⟩
  exact forall_congr' fun stage => forall_congr' fun v => entryConforms_iff stage _

end Sys2Proof.Machine
end

section
/-! PROOFS. What the default evaluators see of the subkeys and of a candidate: constants under the
true subkeys, twelve bits for the inner ones, no difference between partners for the outer ones
(spec/43_evaluate.md R166 to R168). -/

namespace Sys2Proof.Machine

open Sys2Proof.Claims

/-! ### The registers a stage reads (R160) -/

theorem defaultBit_of_fixedBefore {stage : Stage} {k : Subkeys} {k0 k1 k2 : Word}
    (h : FixedBefore stage k k0 k1 k2) (v : Variant) (p : Pair) (cand : Word) :
    defaultBit stage v p k0 k1 k2 cand = defaultBit stage v p k.k0 k.k1 k.k2 cand := by
  obtain ⟨fixed0, fixed1, fixed2⟩ := h
  rw [defaultBit_eq, defaultBit_eq]
  cases stage with
  | k0 => simp only [directBit, stageInput]
  | k1 => simp only [directBit, stageInput, evalOutputs_y0, fixed0 (by decide)]
  | k2 =>
    simp only [directBit, stageInput, evalOutputs_y0, evalOutputs_y1, fixed0 (by decide),
      fixed1 (by decide)]
  | k3 => rw [fixed0 (by decide), fixed1 (by decide), fixed2 (by decide)]

/-! ### Constants under the true subkeys (R166) -/

/-- `PL^PR^CL = Y1^Y3^K4` (42_decrypt.md R144). -/
theorem plain_xor_encrypted_left (p : Block) (k : Subkeys) :
    p.left ^^^ p.right ^^^ (encryptBlock p k).left =
      (ys p.left p.right k.k0 k.k1 k.k2 k.k3).y1 ^^^
        (ys p.left p.right k.k0 k.k1 k.k2 k.k3).y3 ^^^ k.k4 := by
  have cancels (l r b d e : Word) : l ^^^ r ^^^ (l ^^^ r ^^^ b ^^^ d ^^^ e) = b ^^^ d ^^^ e := by
    rw [BitVec.xor_assoc (l ^^^ r), BitVec.xor_assoc (l ^^^ r), xor_cancel_left]
  rw [encryptBlock_left, cancels]

/-- `PL^CL^CR = Y0^Y2^K4^K5` (42_decrypt.md R144). -/
theorem left_xor_encrypted (p : Block) (k : Subkeys) :
    p.left ^^^ (encryptBlock p k).left ^^^ (encryptBlock p k).right =
      (ys p.left p.right k.k0 k.k1 k.k2 k.k3).y0 ^^^
        (ys p.left p.right k.k0 k.k1 k.k2 k.k3).y2 ^^^ k.k4 ^^^ k.k5 := by
  have cancels (l r a b c d e f : Word) :
      l ^^^ (l ^^^ r ^^^ b ^^^ d ^^^ e) ^^^ (r ^^^ a ^^^ b ^^^ c ^^^ d ^^^ f) =
        a ^^^ c ^^^ e ^^^ f :=
    calc l ^^^ (l ^^^ r ^^^ b ^^^ d ^^^ e) ^^^ (r ^^^ a ^^^ b ^^^ c ^^^ d ^^^ f)
        = l ^^^ r ^^^ b ^^^ d ^^^ (l ^^^ r ^^^ b ^^^ d ^^^ (a ^^^ c ^^^ e ^^^ f)) := by ac_rfl
      _ = a ^^^ c ^^^ e ^^^ f := xor_cancel_left _ _
  rw [encryptBlock_left, encryptBlock_right, cancels]

/-- The bit every pair under the key gives, from the key alone. -/
def trueKeyBit (k : Subkeys) (v : Variant) : Stage → Bool
  | .k0 => bitsAt (relationOutput v) k.k4 ^^
      bitsAt (relationInput v) (k.k1 ^^^ k.k3 ^^^ k.k4 ^^^ k.k5)
  | .k1 => bitsAt (relationOutput v) (k.k4 ^^^ k.k5) ^^ bitsAt (relationInput v) k.k2 ^^ true
  | .k2 => bitsAt (relationInput v) (k.k4 ^^^ k.k5)
  | .k3 => bitsAt (relationInput v) k.k4

/-- Each evaluator approximates the round output of its stage, up to bits of the key: stages 2 and 3
exactly, stages 0 and 1 by the relation of F at Y1 and Y3, and at Y2. -/
theorem directBit_pairUnder (k : Subkeys) (stage : Stage) (v : Variant) (plain : Block) :
    directBit v (pairUnder k plain) (evalOutputs (pairUnder k plain) k.k0 k.k1 k.k2) stage =
      (trueKeyBit k v stage ^^ bitsAt (relationInput v)
        (stageOutput (ys plain.left plain.right k.k0 k.k1 k.k2 k.k3) stage)) := by
  rw [pairUnder]
  cases stage with
  | k0 =>
    simp only [directBit, trueKeyBit, stageOutput, plain_xor_encrypted_left, left_xor_encrypted,
      ys_y0, ys_y1, ys_y2, ys_y3, y1Of, y3Of, bitsAt_xor, bitsAt_relationOutput_F]
    grind
  | k1 =>
    simp only [directBit, trueKeyBit, stageOutput, left_xor_encrypted, evalOutputs_y0,
      ys_y0, ys_y1, ys_y2, y2Of, bitsAt_xor, bitsAt_relationOutput_F]
    grind
  | k2 =>
    simp only [directBit, trueKeyBit, stageOutput, left_xor_encrypted, evalOutputs_y0,
      ys_y0, ys_y2, bitsAt_xor]
    grind
  | k3 =>
    simp only [directBit, trueKeyBit, stageOutput, plain_xor_encrypted_left, evalOutputs_y1,
      ys_y1, ys_y3, bitsAt_xor]
    grind

theorem defaultBit_pairUnder (k : Subkeys) (stage : Stage) (v : Variant) (plain : Block) :
    defaultBit stage v (pairUnder k plain) k.k0 k.k1 k.k2 (stageKey k stage) =
      trueKeyBit k v stage := by
  rw [defaultBit_eq, F_stageInput_stageKey, directBit_pairUnder, pairUnder, Bool.xor_assoc,
    Bool.xor_self, Bool.xor_false]

/-- Settles O25: the round output an evaluator approximates is its transform output when the
candidate is the subkey, so the two cancel and bits of the key are left. -/
theorem trueKeyEvaluatorsAreConstant : Obligations.TrueKeyEvaluatorsAreConstant := by
  constructor
  · intro k stage v
    refine ⟨trueKeyBit k v stage, fun plain k0 k1 k2 fixed => ?_⟩
    rw [defaultBit_of_fixedBefore fixed, defaultBit_pairUnder]
  · intro plain
    simp only [defaultBit_pairUnder]
    decide

/-! ### Twelve bits of an inner candidate (R167) -/

/-- The first operand of the sum in o1 of F. -/
def highFold (x : Word) : Byte := byte1 x ^^^ byte0 x

/-- The second operand of the sum in o1 of F. -/
def lowFold (x : Word) : Byte := byte2 x ^^^ byte3 x

theorem highFold_xor (x y : Word) : highFold (x ^^^ y) = highFold x ^^^ highFold y := by
  simp only [highFold, byte0_xor, byte1_xor]
  ac_rfl

theorem lowFold_xor (x y : Word) : lowFold (x ^^^ y) = lowFold x ^^^ lowFold y := by
  simp only [lowFold, byte2_xor, byte3_xor]
  ac_rfl

theorem inClass_iff (i : BitVec 12) (c : Word) :
    InClass i c ↔
      (highFold c).toNat % 2 ^ 6 = i.toNat / 64 ∧ (lowFold c).toNat % 2 ^ 6 = i.toNat % 64 := by
  rw [highFold, BitVec.xor_comm]
  rfl

/-- Bits 6 of the two operands, which enter bit 6 of their sum linearly. -/
def linearPart (x : Word) : Bool := (highFold x).getLsbD 6 ^^ (lowFold x).getLsbD 6

theorem linearPart_xor (x y : Word) : linearPart (x ^^^ y) = (linearPart x ^^ linearPart y) := by
  simp only [linearPart, highFold_xor, lowFold_xor, BitVec.getLsbD_xor, Bool.xor_assoc,
    Bool.xor_left_comm]

/-- Bit 0 of o1 is bit 6 of its sum. -/
theorem bitAt_15_F (x : Word) :
    bitAt 15 (F x) = (linearPart x ^^ BitVec.carry 6 (highFold x) (lowFold x) true) := by
  have bit_of_byte : bitAt 15 (F x) = (byte1 (F x)).getLsbD 0 := bitAt_eq_byte_bit 15 (F x)
  rw [bit_of_byte, byte1_F, o1Of, sub1, getLsbD_rotl2 _ (by decide), linearPart, Bool.xor_assoc]
  exact BitVec.getLsbD_add_add_bool (by decide) (highFold x) (lowFold x) true

/-- A carry depends on the bits below it alone. -/
theorem carry_xor_congr {i w : Nat} {a a' b b' : BitVec w} (ha : a.toNat % 2 ^ i = a'.toNat % 2 ^ i)
    (hb : b.toNat % 2 ^ i = b'.toNat % 2 ^ i) (x y : BitVec w) (c : Bool) :
    BitVec.carry i (x ^^^ a) (y ^^^ b) c = BitVec.carry i (x ^^^ a') (y ^^^ b') c := by
  simp only [BitVec.carry, BitVec.toNat_xor, Nat.xor_mod_two_pow, ha, hb]

theorem bitAt_15_F_of_inClass {i : BitVec 12} {c c' : Word} (h : InClass i c) (h' : InClass i c')
    (x : Word) :
    bitAt 15 (F (x ^^^ c')) = (bitAt 15 (F (x ^^^ c)) ^^ (linearPart c ^^ linearPart c')) := by
  obtain ⟨high, low⟩ := (inClass_iff i c).mp h
  obtain ⟨high', low'⟩ := (inClass_iff i c').mp h'
  have same_carry := carry_xor_congr (high'.trans high.symm) (low'.trans low.symm)
    (highFold x) (lowFold x) true
  have cancels : ∀ a b b' carry : Bool,
      ((a ^^ b') ^^ carry) = (((a ^^ b) ^^ carry) ^^ (b ^^ b')) := by decide
  rw [bitAt_15_F, bitAt_15_F, linearPart_xor, linearPart_xor, highFold_xor, highFold_xor,
    lowFold_xor, lowFold_xor, same_carry]
  exact cancels ..

theorem defaultBit_inner_of_inClass {i : BitVec 12} {c c' : Word} (h : InClass i c)
    (h' : InClass i c') (stage : Stage) (p : Pair) (k0 k1 k2 : Word) :
    defaultBit stage .inner p k0 k1 k2 c' =
      (defaultBit stage .inner p k0 k1 k2 c ^^ (linearPart c ^^ linearPart c')) := by
  simp only [defaultBit_eq, relationInput, bitsAt, bitAt_15_F_of_inClass h h', Bool.xor_false,
    Bool.xor_assoc]

/-- Six bits of the index, shifted to a byte's place. -/
theorem toNat_six_bits_shiftLeft (v : Word) {n : Nat} (hn : n ≤ 16) :
    ((v &&& 0x3F) <<< n).toNat = v.toNat % 64 * 2 ^ n := by
  have low_six : (v &&& 0x3F).toNat = v.toNat % 64 := by
    rw [BitVec.toNat_and]
    exact Nat.and_two_pow_sub_one_eq_mod v.toNat 6
  have place : 2 ^ n ≤ 2 ^ 16 := Nat.pow_le_pow_right (by decide) hn
  have fits : v.toNat % 64 * 2 ^ n < 2 ^ 32 :=
    calc v.toNat % 64 * 2 ^ n ≤ 63 * 2 ^ 16 := Nat.mul_le_mul (by omega) place
      _ < 2 ^ 32 := by decide
  rw [BitVec.toNat_shiftLeft, low_six, Nat.shiftLeft_eq, Nat.mod_eq_of_lt fits]

/-- The value of an inner candidate: the two halves of the index in bytes 1 and 2
(44_candidate.md R190). -/
theorem buildInner_toNat (i : BitVec 12) :
    (buildInner i).toNat = i.toNat / 64 * 2 ^ 16 + i.toNat % 64 * 2 ^ 8 := by
  have index : (i.setWidth 32).toNat = i.toNat := BitVec.toNat_setWidth_of_le (by decide)
  have high_half : i.toNat / 2 ^ 6 % 64 = i.toNat / 64 := by omega
  have low_half : i.toNat % 64 * 2 ^ 8 < 2 ^ 16 := by omega
  rw [buildInner, BitVec.toNat_or, toNat_six_bits_shiftLeft _ (by decide),
    toNat_six_bits_shiftLeft _ (by decide), BitVec.toNat_ushiftRight, Nat.shiftRight_eq_div_pow,
    index, high_half, ← Nat.shiftLeft_eq, ← Nat.shiftLeft_add_eq_or_of_lt low_half,
    Nat.shiftLeft_eq]

theorem inClass_buildInner (i : BitVec 12) : InClass i (buildInner i) := by
  have outer_bytes : byte0 (buildInner i) = 0#8 ∧ byte3 (buildInner i) = 0#8 := by
    constructor <;> apply BitVec.eq_of_toNat_eq <;>
      simp only [byte0_toNat, byte3_toNat, buildInner_toNat, BitVec.toNat_ofNat] <;> omega
  obtain ⟨b0, b3⟩ := outer_bytes
  rw [InClass, b0, b3, BitVec.zero_xor, BitVec.xor_zero, byte1_toNat, byte2_toNat,
    buildInner_toNat]
  omega

theorem inClass_foldIndex (key : Word) :
    InClass (BitVec.ofNat 12 (64 * ((byte0 key ^^^ byte1 key).toNat % 64) +
      (byte2 key ^^^ byte3 key).toNat % 64)) key := by
  unfold InClass
  rw [BitVec.toNat_ofNat]
  omega

/-- Settles O26: the carry into bit 6 is the same for candidates of one class, and bit 6 itself is
linear; the representative and the subkey are of one class. -/
theorem innerEvaluatorSeesTwelveBits : Obligations.InnerEvaluatorSeesTwelveBits := by
  refine ⟨?one_class, ?representative, by decide, ?test_key⟩
  case one_class =>
    intro stage c c' i h h'
    exact ⟨linearPart c ^^ linearPart c', defaultBit_inner_of_inClass h h' stage⟩
  case representative =>
    intro stage key i p p' k0 k1 k2 passes
    have same_class := defaultBit_inner_of_inClass (inClass_foldIndex key) (inClass_buildInner i)
      stage
    rw [same_class, same_class, passes]
  case test_key =>
    intro stage
    unfold InClass
    cases stage <;> decide

/-! ### The partners of an outer candidate (R168) -/

theorem defaultBit_outer_xor {d e : Word} (hF : ∀ x, F (x ^^^ e) = F x ^^^ d)
    (unread : bitsAt [7, 15, 23, 31] d = false) (stage : Stage) (p : Pair) (k0 k1 k2 c : Word) :
    defaultBit stage .outer p k0 k1 k2 (c ^^^ e) = defaultBit stage .outer p k0 k1 k2 c := by
  rw [defaultBit_eq, defaultBit_eq, ← BitVec.xor_assoc, hF, bitsAt_xor, relationInput, unread,
    Bool.xor_false]

theorem cat8_xor (a b c d a' b' c' d' : Byte) :
    cat8 a b c d ^^^ cat8 a' b' c' d' = cat8 (a ^^^ a') (b ^^^ b') (c ^^^ c') (d ^^^ d') := by
  apply eq_of_bytes <;> simp

theorem outerB0_xor (n m : BitVec 20) : outerB0 (n ^^^ m) = outerB0 n ^^^ outerB0 m :=
  BitVec.extractLsb'_xor

theorem outerB3_xor (n m : BitVec 20) : outerB3 (n ^^^ m) = outerB3 n ^^^ outerB3 m :=
  BitVec.extractLsb'_xor

theorem outerA0_xor {m : BitVec 20} (h : m.extractLsb' 2 2 = 0#2) (n : BitVec 20) (ik : Word) :
    outerA0 (n ^^^ m) ik = outerA0 n ik := by
  rw [outerA0, BitVec.extractLsb'_xor, h, BitVec.xor_zero, outerA0]

theorem outerA1_xor {m : BitVec 20} (h : m.extractLsb' 0 2 = 0#2) (n : BitVec 20) (ik : Word) :
    outerA1 (n ^^^ m) ik = outerA1 n ik := by
  rw [outerA1, BitVec.extractLsb'_xor, h, BitVec.xor_zero, outerA1]

/-- A difference of the index in the bits of b0 and b3 alone enters both bytes each goes into. -/
theorem buildOuter_xor {m : BitVec 20} (h0 : m.extractLsb' 2 2 = 0#2)
    (h1 : m.extractLsb' 0 2 = 0#2) (n : BitVec 20) (ik : Word) :
    buildOuter (n ^^^ m) ik =
      buildOuter n ik ^^^ cat8 (outerB0 m) (outerB0 m) (outerB3 m) (outerB3 m) := by
  simp only [buildOuter, outerA0_xor h0, outerA1_xor h1, outerB0_xor, outerB3_xor, cat8_xor,
    BitVec.xor_assoc, BitVec.xor_comm (outerB0 m), BitVec.xor_comm (outerB3 m)]

/-- Settles O27: the differences reach F's output only in bits that no outer mask reads, and index
bits 19 and 11 are the top bits of b0 and b3. -/
theorem outerEvaluatorCannotTellPartners : Obligations.OuterEvaluatorCannotTellPartners := by
  intro stage p k0 k1 k2
  refine ⟨fun c => ?partners, fun n ik => ?index_bits⟩
  case partners =>
    have high (c : Word) := defaultBit_outer_xor F_xor_high (by decide) stage p k0 k1 k2 c
    have low (c : Word) := defaultBit_outer_xor F_xor_low (by decide) stage p k0 k1 k2 c
    have both : c ^^^ 0x80808080 = c ^^^ 0x80800000 ^^^ 0x00008080 :=
      (BitVec.xor_assoc c 0x80800000 0x00008080).symm
    exact ⟨high c, low c, by rw [both, low, high]⟩
  case index_bits =>
    exact ⟨buildOuter_xor (by decide) (by decide) n ik,
      buildOuter_xor (by decide) (by decide) n ik⟩

end Sys2Proof.Machine
end

section
/-! PROOFS. EVAL and EVAL.A (spec/43_evaluate.md R165, spec/45_filter.md R211). -/

namespace Sys2Proof.Machine

open Sys2Proof.Claims

/-! ### The words (R165) -/

theorem runsAs_eval (stage : Stage) (v : Variant) :
    RunsAs (BitVec.ofNat 32 (0x30000000 + stageNumber stage * 2 ^ 26 +
      (if v = .outer then 1 else 0) * 2 ^ 25)) (.eval stage v) := by
  apply runsAs_of_decode
  cases stage <;> cases v <;> rfl

theorem runsAs_evalA (stage : Stage) (v : Variant) :
    RunsAs (BitVec.ofNat 32 (0x30000000 + stageNumber stage * 2 ^ 26 +
      (if v = .outer then 1 else 0) * 2 ^ 25 + 2 ^ 24)) (.evalA stage v) := by
  apply runsAs_of_decode
  cases stage <;> cases v <;> rfl

/-- The two forms of EVAL are the commands with OP 3. -/
theorem eq_eval_or_evalA_of_opOf_encode {i : Instr} (h : opOf (encode i) = 0x3) :
    ∃ stage v, i = .eval stage v ∨ i = .evalA stage v := by
  cases i <;> simp_all [encode, opOf_assembleWord]

/-- EVAL and EVAL.A leave RSV and IMM20 at 0. -/
theorem fields_of_opOf_encode_eval {i : Instr} (h : opOf (encode i) = 0x3) :
    (fieldsOf (encode i)).rsv = 0 ∧ (fieldsOf (encode i)).imm = 0 := by
  obtain ⟨stage, v, rfl | rfl⟩ := eq_eval_or_evalA_of_opOf_encode h <;>
    simp only [encode, fieldsOf_assembleWord, and_self]

/-! ### The effects -/

theorem ofBool_setWidth (b : Bool) : (BitVec.ofBool b).setWidth 32 = if b then 1 else 0 := by
  cases b <;> rfl

theorem setEbit_eq (s : State) (b : Bool) :
    s.setEbit b = { s with ebit := if b then 1 else 0 } := by
  rw [State.setEbit, ofBool_setWidth]

theorem exec_eval (stage : Stage) (v : Variant) (s : State) :
    exec (.eval stage v) s =
      .next { s with ebit := if s.evaluator stage v then 1 else 0 } := by
  rw [exec_eq_effect, commandEffect, setEbit_eq]

theorem exec_evalA (stage : Stage) (v : Variant) (s : State) :
    exec (.evalA stage v) s =
      .next { s with
        ebit := if s.evaluator stage v then 1 else 0
        filt := s.filt.accumulate (s.evaluator stage v) } := by
  rw [exec_eq_effect, commandEffect, setEbit_eq, State.setFilt]

/-! ### The examples -/

/-- The examples' pair is the test key's encryption of the zero block. -/
theorem pairUnder_testKey : pairUnder testKey ⟨0, 0⟩ = ⟨0, 0, 0xF4C3198E, 0x39073A30⟩ := by
  have encrypted : encryptBlock ⟨0, 0⟩ testKey = ⟨0xF4C3198E, 0x39073A30⟩ := by
    rw [← decryptBlock_testKey, encryptBlock_decryptBlock]
  rw [pairUnder, encrypted]

/-- With a pair of the test key, its K0..K2 and the subkey of the stage as the candidate, the bit is
the key's constant. -/
theorem evaluator_testKey {s : State} {plain : Block} (happrox : s.approx = defaultApprox)
    (hpair : s.pair = pairUnder testKey plain) (hk0 : s.k0 = testKey.k0) (hk1 : s.k1 = testKey.k1)
    (hk2 : s.k2 = testKey.k2) {stage : Stage} (hcand : s.cand = stageKey testKey stage)
    (v : Variant) : s.evaluator stage v = trueKeyBit testKey v stage := by
  rw [State.evaluator, happrox, hpair, hk0, hk1, hk2, hcand]
  exact defaultBit_pairUnder testKey stage v plain

/-- Settles O13: both forms from every state; no command encodes to another word with OP 3; and the
examples are bits of R166 under the test key. -/
theorem evalRule : Obligations.EvalRule := by
  refine ⟨?words, ?effects, ?illegal, ?stage0, ?examples⟩
  case words => exact fun stage v => ⟨runsAs_eval stage v, runsAs_evalA stage v⟩
  case effects => exact fun stage v s => ⟨exec_eval stage v s, exec_evalA stage v s⟩
  case illegal =>
    rintro _ op nonzero
    apply raisesIll_of_forall_encode_ne
    rintro i rfl
    obtain ⟨rsv_zero, imm_zero⟩ := fields_of_opOf_encode_eval op
    exact nonzero.elim (absurd imm_zero) (absurd rsv_zero)
  case stage0 =>
    intro v p k0 k1 k2 k0' k1' k2' cand
    simp only [defaultBit_eq, directBit, stageInput]
  case examples =>
    intro s happrox hpl hpr hcl hcr hk0 hk1 hk2
    have hpair : s.pair = pairUnder testKey ⟨0, 0⟩ := by
      rw [pairUnder_testKey, State.pair, hpl, hpr, hcl, hcr]
    have bit (stage : Stage) (v : Variant) (hcand : s.cand = stageKey testKey stage) :
        s.evaluator stage v = trueKeyBit testKey v stage :=
      evaluator_testKey happrox hpair hk0 hk1 hk2 hcand v
    have zero : trueKeyBit testKey .inner .k0 = false := by decide
    have one : trueKeyBit testKey .outer .k1 = true := by decide
    constructor
    · intro hcand
      rw [exec_eval, bit .k0 .inner hcand, zero]
      rfl
    · intro hcand
      rw [exec_eval, bit .k1 .outer hcand, one]
      rfl

end Sys2Proof.Machine
end

section
/-! PROOFS. The candidate maps: their bytes, which inner class a candidate is of, and the outer
candidates of an inner key as its class (spec/44_candidate.md R190, R191, R195, R196). -/

namespace Sys2Proof.Machine

open Sys2Proof.Claims

/-! ### Inner candidates (R190) -/

/-- The bytes of an inner candidate: the halves of the index between two zero bytes. -/
theorem buildInner_eq_cat8 (i : BitVec 12) :
    buildInner i = cat8 0#8 (BitVec.ofNat 8 (i.toNat / 64)) (BitVec.ofNat 8 (i.toNat % 64)) 0#8 := by
  have index_lt : i.toNat < 2 ^ 12 := i.isLt
  apply BitVec.eq_of_toNat_eq
  simp only [buildInner_toNat, cat8_toNat, BitVec.toNat_ofNat]
  omega

theorem byte1_buildInner_toNat (i : BitVec 12) : (byte1 (buildInner i)).toNat = i.toNat / 64 := by
  have index_lt : i.toNat < 2 ^ 12 := i.isLt
  rw [buildInner_eq_cat8, byte1_cat8, BitVec.toNat_ofNat]
  omega

theorem byte2_buildInner_toNat (i : BitVec 12) : (byte2 (buildInner i)).toNat = i.toNat % 64 := by
  rw [buildInner_eq_cat8, byte2_cat8, BitVec.toNat_ofNat]
  omega

/-- The inner classes are disjoint. -/
theorem eq_of_inClass {i j : BitVec 12} {c : Word} (h : InClass i c) (h' : InClass j c) : i = j := by
  obtain ⟨high, low⟩ := h
  obtain ⟨high', low'⟩ := h'
  apply BitVec.eq_of_toNat_eq
  omega

theorem buildInner_injective {i j : BitVec 12} (h : buildInner i = buildInner j) : i = j := by
  have own_class := inClass_buildInner i
  rw [h] at own_class
  exact eq_of_inClass own_class (inClass_buildInner j)

/-- Settles O28: the value and the bytes are the index's two halves, and a candidate is of the class
of its own index alone. -/
theorem innerCandidateMap : Obligations.InnerCandidateMap := by
  refine ⟨fun i => ⟨?value, ?byte0, ?byte3, byte1_buildInner_toNat i, byte2_buildInner_toNat i⟩,
    fun _ _ => buildInner_injective, by decide⟩
  case value =>
    have half : i.toNat / 64 % 64 = i.toNat / 64 := by omega
    rw [half, ← buildInner_toNat, BitVec.ofNat_toNat, BitVec.setWidth_eq]
  case byte0 => exact (congrArg byte0 (buildInner_eq_cat8 i)).trans (byte0_cat8 _ _ _ _)
  case byte3 => exact (congrArg byte3 (buildInner_eq_cat8 i)).trans (byte3_cat8 _ _ _ _)

/-! ### The slices and sums of an outer candidate (R191) -/

theorem outerB0_toNat (n : BitVec 20) : (outerB0 n).toNat = n.toNat / 2 ^ 12 := by
  have index_lt : n.toNat < 2 ^ 20 := n.isLt
  rw [outerB0, BitVec.extractLsb'_toNat, Nat.shiftRight_eq_div_pow]
  omega

theorem outerB3_toNat (n : BitVec 20) : (outerB3 n).toNat = n.toNat / 2 ^ 4 % 256 := by
  rw [outerB3, BitVec.extractLsb'_toNat, Nat.shiftRight_eq_div_pow]

/-- Two index bits as the top bits of a byte. -/
theorem topBits_toNat (t : BitVec 2) : (t.setWidth 8 <<< 6).toNat = t.toNat * 64 := by
  revert t; decide

theorem outerA0_toNat (n : BitVec 20) (ik : Word) :
    (outerA0 n ik).toNat = (n.toNat / 4 % 4 * 64 + (byte1 ik).toNat) % 256 := by
  rw [outerA0, BitVec.toNat_add, topBits_toNat, BitVec.extractLsb'_toNat,
    Nat.shiftRight_eq_div_pow]

theorem outerA1_toNat (n : BitVec 20) (ik : Word) :
    (outerA1 n ik).toNat = (n.toNat % 4 * 64 + (byte2 ik).toNat) % 256 := by
  rw [outerA1, BitVec.toNat_add, topBits_toNat, BitVec.extractLsb'_toNat, Nat.shiftRight_zero]

/-- Onto a byte below 0x40 the top bits are added without a carry. -/
theorem topBits_add_eq_or (t : BitVec 2) {b : Byte} (hb : b.toNat < 2 ^ 6) :
    (t.setWidth 8 <<< 6) + b = (t.setWidth 8 <<< 6) ||| b := by
  have top : t.toNat * 64 = t.toNat <<< 6 := (Nat.shiftLeft_eq t.toNat 6).symm
  apply BitVec.eq_of_toNat_eq
  rw [BitVec.toNat_add, BitVec.toNat_or, topBits_toNat, top, ← Nat.shiftLeft_add_eq_or_of_lt hb,
    ← top]
  omega

/-- Settles O29: the slices and sums of the rule as numbers; the middle bytes of an inner candidate
are below 0x40. -/
theorem outerCandidateMap : Obligations.OuterCandidateMap := by
  refine ⟨fun n ik => ?bytes, fun n i => ⟨?high, ?low⟩, by decide⟩
  case bytes =>
    simp only [← outerA0_toNat, ← outerA1_toNat, ← outerB0_toNat, ← outerB3_toNat,
      BitVec.ofNat_toNat, BitVec.setWidth_eq]
    rfl
  case high =>
    apply topBits_add_eq_or
    rw [byte1_buildInner_toNat]
    omega
  case low =>
    apply topBits_add_eq_or
    rw [byte2_buildInner_toNat]
    omega

/-! ### The outer bytes and the folds of an outer candidate (R195) -/

@[simp] theorem byte0_buildOuter (n : BitVec 20) (ik : Word) : byte0 (buildOuter n ik) = outerB0 n :=
  byte0_cat8 _ _ _ _

@[simp] theorem byte3_buildOuter (n : BitVec 20) (ik : Word) : byte3 (buildOuter n ik) = outerB3 n :=
  byte3_cat8 _ _ _ _

@[simp] theorem highFold_buildOuter (n : BitVec 20) (ik : Word) :
    highFold (buildOuter n ik) = outerA0 n ik := by
  rw [highFold, buildOuter, byte1_cat8, byte0_cat8, BitVec.xor_comm, ← BitVec.xor_assoc,
    BitVec.xor_self, BitVec.zero_xor]

@[simp] theorem lowFold_buildOuter (n : BitVec 20) (ik : Word) :
    lowFold (buildOuter n ik) = outerA1 n ik := by
  rw [lowFold, buildOuter, byte2_cat8, byte3_cat8, BitVec.xor_comm, ← BitVec.xor_assoc,
    BitVec.xor_self, BitVec.zero_xor]

/-- Settles O30: the two folds of an outer candidate are a0 and a1. -/
theorem outerCandidateIdentity : Obligations.OuterCandidateIdentity := by
  intro n ik
  rw [← outerA0_toNat, ← outerA1_toNat, BitVec.ofNat_toNat, BitVec.ofNat_toNat, BitVec.setWidth_eq,
    BitVec.setWidth_eq]
  exact ⟨highFold_buildOuter n ik, lowFold_buildOuter n ik⟩

/-! ### The outer candidates of an inner key are its class (R196) -/

theorem inClass_buildOuter (n : BitVec 20) (i : BitVec 12) :
    InClass i (buildOuter n (buildInner i)) := by
  rw [inClass_iff, highFold_buildOuter, lowFold_buildOuter, outerA0_toNat, outerA1_toNat,
    byte1_buildInner_toNat, byte2_buildInner_toNat]
  omega

/-- For every inner key, canonical or not, the candidate gives its index back: b0 and b3 are its
outer bytes, and each fold less the inner key's byte is a top slice. -/
theorem buildOuter_injective {n m : BitVec 20} {ik : Word} (h : buildOuter n ik = buildOuter m ik) :
    n = m := by
  have b0 := congrArg (fun c => (byte0 c).toNat) h
  have b3 := congrArg (fun c => (byte3 c).toNat) h
  have a0 := congrArg (fun c => (highFold c).toNat) h
  have a1 := congrArg (fun c => (lowFold c).toNat) h
  simp only [byte0_buildOuter, byte3_buildOuter, highFold_buildOuter, lowFold_buildOuter,
    outerB0_toNat, outerB3_toNat, outerA0_toNat, outerA1_toNat] at b0 b3 a0 a1
  apply BitVec.eq_of_toNat_eq
  omega

/-- A word is determined by its outer bytes and its folds. -/
theorem eq_of_folds {c d : Word} (h0 : byte0 c = byte0 d) (h3 : byte3 c = byte3 d)
    (high : highFold c = highFold d) (low : lowFold c = lowFold d) : c = d := by
  rw [highFold, highFold, h0, BitVec.xor_left_inj] at high
  rw [lowFold, lowFold, h3, BitVec.xor_left_inj] at low
  exact eq_of_bytes h0 high low h3

/-- The index of a word as an outer candidate of its class (44_candidate.md R197). -/
def outerIndex (c : Word) : BitVec 20 :=
  BitVec.ofNat 20 ((byte0 c).toNat * 2 ^ 12 + (byte3 c).toNat * 2 ^ 4 +
    (highFold c).toNat / 64 * 4 + (lowFold c).toNat / 64)

theorem outerIndex_toNat (c : Word) :
    (outerIndex c).toNat = (byte0 c).toNat * 2 ^ 12 + (byte3 c).toNat * 2 ^ 4 +
      (highFold c).toNat / 64 * 4 + (lowFold c).toNat / 64 := by
  rw [outerIndex, BitVec.toNat_ofNat]
  omega

theorem buildOuter_outerIndex {i : BitVec 12} {c : Word} (h : InClass i c) :
    buildOuter (outerIndex c) (buildInner i) = c := by
  obtain ⟨high, low⟩ := (inClass_iff i c).mp h
  apply eq_of_folds <;> apply BitVec.eq_of_toNat_eq
  · rw [byte0_buildOuter, outerB0_toNat, outerIndex_toNat]
    omega
  · have outer_bytes :
        (outerIndex c).toNat / 2 ^ 4 = (byte0 c).toNat * 256 + (byte3 c).toNat := by
      rw [outerIndex_toNat]
      omega
    rw [byte3_buildOuter, outerB3_toNat, outer_bytes]
    omega
  · rw [highFold_buildOuter, outerA0_toNat, outerIndex_toNat, byte1_buildInner_toNat]
    omega
  · rw [lowFold_buildOuter, outerA1_toNat, outerIndex_toNat, byte2_buildInner_toNat]
    omega

/-- Settles O31: `outerIndex` gives back every word of the class, and the index of a word's class is
read off its folds. -/
theorem outerCandidatesCoverTheClass : Obligations.OuterCandidatesCoverTheClass := by
  constructor
  · intro i
    exact ⟨fun n => inClass_buildOuter n i, fun _ _ => buildOuter_injective,
      fun c h => ⟨outerIndex c, buildOuter_outerIndex h⟩⟩
  · intro c
    exact ⟨_, inClass_foldIndex c, fun _ h => eq_of_inClass h (inClass_foldIndex c)⟩

end Sys2Proof.Machine
end

section
/-! PROOFS. BUILDI, BUILDO and KSET (spec/44_candidate.md R192 to R194). -/

namespace Sys2Proof.Machine

open Sys2Proof.Claims

/-! ### The words (R92, R104) -/

/-- IMM20 of BUILDI holds the index, and the bits above it are 0. -/
theorem imm_of_index (n : BitVec 12) :
    (n.setWidth 20).extractLsb' 0 12 = n ∧ (n.setWidth 20).extractLsb' 12 8 = 0#8 := by
  have index_lt : n.toNat < 2 ^ 12 := n.isLt
  constructor <;> apply BitVec.eq_of_toNat_eq <;>
    simp only [BitVec.extractLsb'_toNat, BitVec.toNat_setWidth, Nat.shiftRight_eq_div_pow,
      BitVec.toNat_ofNat] <;>
    omega

theorem decode_encode (i : Instr) : decode (encode i) = .ok i := by
  cases i with
  | buildi n =>
    obtain ⟨index, high⟩ := imm_of_index n
    simp [decode, encode, fieldsOf_assembleWord, decodeFields, requireZero, index, high]
  | _ => simp [decode, encode, fieldsOf_assembleWord, decodeFields, requireZero]

theorem runsAs_encode (i : Instr) : RunsAs (encode i) i :=
  runsAs_of_decode (decode_encode i)

/-- A word with an index alone set is its OP's word or the index. -/
theorem assembleWord_imm (op : BitVec 4) (imm : BitVec 20) :
    assembleWord op 0 0 0 imm = assembleWord op 0 0 0 0 ||| imm.setWidth 32 := by
  apply BitVec.eq_of_getLsbD_eq
  intro i hi
  rw [BitVec.getLsbD_or, getLsbD_assembleWord, getLsbD_assembleWord, BitVec.getLsbD_setWidth]
  by_cases in_imm : i < 20
  · simp [in_imm, hi]
  · simp [in_imm, BitVec.getLsbD_of_ge imm i (by omega)]

theorem encode_buildi (n : BitVec 12) : encode (.buildi n) = 0x40000000 ||| n.setWidth 32 := by
  rw [encode, assembleWord_imm, BitVec.setWidth_setWidth (by decide)]
  rfl

theorem encode_buildo (n : BitVec 20) : encode (.buildo n) = 0x50000000 ||| n.setWidth 32 :=
  assembleWord_imm 0x5 n

/-! ### The illegal words (R99) -/

/-- Bits that the commands of an OP all leave at 0 must be 0 in a legal word of that OP. -/
theorem raisesIll_of_encode_leaves_zero {op : BitVec 4} {start len : Nat}
    (zero : ∀ i, opOf (encode i) = op → (encode i).extractLsb' start len = 0) :
    ∀ w, opOf w = op → w.extractLsb' start len ≠ 0 → RaisesIll w := by
  intro w hop nonzero
  apply raisesIll_of_forall_encode_ne
  rintro i rfl
  exact nonzero (zero i hop)

theorem eq_buildi_of_opOf_encode {i : Instr} (h : opOf (encode i) = 0x4) : ∃ n, i = .buildi n := by
  cases i <;> simp_all [encode, opOf_assembleWord]

theorem eq_buildo_of_opOf_encode {i : Instr} (h : opOf (encode i) = 0x5) : ∃ n, i = .buildo n := by
  cases i <;> simp_all [encode, opOf_assembleWord]

theorem eq_kset_of_opOf_encode {i : Instr} (h : opOf (encode i) = 0x6) :
    ∃ stage, i = .kset stage := by
  cases i <;> simp_all [encode, opOf_assembleWord]

/-- BUILDI leaves the bits between its index and OP at 0. -/
theorem encode_buildi_middle (n : BitVec 12) : (encode (.buildi n)).extractLsb' 12 16 = 0 := by
  have index_lt : n.toNat < 2 ^ 12 := n.isLt
  apply BitVec.eq_of_toNat_eq
  simp only [encode, BitVec.extractLsb'_toNat, assembleWord_toNat, BitVec.toNat_setWidth,
    Nat.shiftRight_eq_div_pow, BitVec.ofNat_eq_ofNat, BitVec.toNat_ofNat, Nat.reducePow]
  omega

/-- BUILDO leaves the bits between its index and OP at 0. -/
theorem encode_buildo_middle (n : BitVec 20) : (encode (.buildo n)).extractLsb' 20 8 = 0 := by
  have index_lt : n.toNat < 2 ^ 20 := n.isLt
  apply BitVec.eq_of_toNat_eq
  simp only [encode, BitVec.extractLsb'_toNat, assembleWord_toNat, Nat.shiftRight_eq_div_pow,
    BitVec.ofNat_eq_ofNat, BitVec.toNat_ofNat, Nat.reducePow]
  omega

/-- KSET leaves the bits below STG at 0. -/
theorem encode_kset_low (stage : Stage) : (encode (.kset stage)).extractLsb' 0 26 = 0 := by
  cases stage <;> rfl

/-! ### The effects, through CMD -/

theorem hostWrite_encode (i : Instr) (s : State) :
    hostWrite 0x7C (encode i) s = .next (commandEffect i s) :=
  ((runsAs_encode i).2 s).trans (exec_eq_effect i s)

/-- Settles O14: an encoded index from every state; no command encodes to a word with OP 4 and a bit
set between the index and OP; index 0 and the example are such words. -/
theorem buildiRule : Obligations.BuildiRule := by
  refine ⟨fun n => ?words, fun n s => exec_eq_effect (.buildi n) s, ?illegal,
    hostWrite_encode (.buildi 0), hostWrite_encode (.buildi 2210)⟩
  case words => exact encode_buildi n ▸ runsAs_encode (.buildi n)
  case illegal =>
    apply raisesIll_of_encode_leaves_zero
    intro i op
    obtain ⟨n, rfl⟩ := eq_buildi_of_opOf_encode op
    exact encode_buildi_middle n

/-- With INK 0 the middle bytes differ from the outer ones in their top bits alone. -/
theorem buildOuter_zero (n : BitVec 20) :
    buildOuter n 0 =
      cat8 (n.extractLsb' 12 8) (n.extractLsb' 12 8 ^^^ ((n.extractLsb' 2 2).setWidth 8 <<< 6))
        (n.extractLsb' 4 8 ^^^ ((n.extractLsb' 0 2).setWidth 8 <<< 6)) (n.extractLsb' 4 8) := by
  have byte1_zero : byte1 0 = 0#8 := by decide
  have byte2_zero : byte2 0 = 0#8 := by decide
  rw [buildOuter, outerA0, outerA1, byte1_zero, byte2_zero, BitVec.add_zero, BitVec.add_zero,
    outerB0, outerB3]

/-- Settles O15: as for BUILDI, with INK read and kept; the example is a word of R191. -/
theorem buildoRule : Obligations.BuildoRule := by
  refine ⟨fun n => ?words, fun n s => exec_eq_effect (.buildo n) s, ?illegal, ?ink_zero, ?test_key⟩
  case words => exact encode_buildo n ▸ runsAs_encode (.buildo n)
  case illegal =>
    apply raisesIll_of_encode_leaves_zero
    intro i op
    obtain ⟨n, rfl⟩ := eq_buildo_of_opOf_encode op
    exact encode_buildo_middle n
  case ink_zero =>
    intro n s ink_zero
    rw [exec_eq_effect, commandEffect, ink_zero, buildOuter_zero]
  case test_key =>
    intro s ink
    have candidate : buildOuter 0x01670 s.ink = 0x01234567 := by rw [ink]; decide
    have runs := hostWrite_encode (.buildo 0x01670) s
    rwa [commandEffect, candidate] at runs

/-- Settles O16: the four stages from every state; no command encodes to a word with OP 6 and a bit
set below STG; a default evaluator of stage 0 reads no subkey register (R165). -/
theorem ksetRule : Obligations.KsetRule := by
  refine ⟨runsAs_encode (.kset .k0), runsAs_encode (.kset .k1), runsAs_encode (.kset .k2),
    runsAs_encode (.kset .k3), fun s => ?effects, ?illegal, ?stage0, ?test_key⟩
  case effects =>
    exact ⟨exec_eq_effect (.kset .k0) s, exec_eq_effect (.kset .k1) s,
      exec_eq_effect (.kset .k2) s, exec_eq_effect (.kset .k3) s⟩
  case illegal =>
    apply raisesIll_of_encode_leaves_zero
    intro i op
    obtain ⟨stage, rfl⟩ := eq_kset_of_opOf_encode op
    exact encode_kset_low stage
  case stage0 =>
    intro v s default_table
    obtain ⟨_, _, _, reads_no_subkey, _⟩ := evalRule
    rw [State.evaluator, State.evaluator, default_table]
    exact reads_no_subkey v s.pair s.cand s.k1 s.k2 s.k0 s.k1 s.k2 s.cand
  case test_key =>
    intro s cand
    have runs := hostWrite_encode (.kset .k1) s
    rwa [commandEffect, cand] at runs

end Sys2Proof.Machine
end

section
/-! PROOFS. What each command and each host move does to FILT: EVAL.A and FCLR, and that OK and VOK
never relax (spec/45_filter.md R211 to R213, R215). -/

namespace Sys2Proof.Machine

open Sys2Proof.Claims

/-! ### The commands that write FILT -/

/-- FILT after a command (10_state.md R50; 45_filter.md R211 to R213). -/
def commandFilt (i : Instr) (s : State) : Filt :=
  match i with
  | .decrypt => s.filt.recordMatch s.decryptMatches
  | .decryptA => (s.filt.recordMatch s.decryptMatches).validate s.decryptMatches
  | .evalA stage v => s.filt.accumulate (s.evaluator stage v)
  | .fclr => Filt.cleared
  | _ => s.filt

theorem commandEffect_filt (i : Instr) (s : State) :
    (commandEffect i s).filt = commandFilt i s := by
  cases i <;> simp [commandEffect, commandFilt]

/-- Settles O33: the three cases are those of `Filt.accumulate` at the evaluator bit. -/
theorem filterAccumulation : Obligations.FilterAccumulation := by
  intro stage v s
  exact ⟨_, exec_evalA stage v s, accumulate_first _, accumulate_differs, accumulate_agrees,
    accumulate_matched _ _, accumulate_vok _ _⟩

/-- FCLR is the one command with OP 9. -/
theorem eq_fclr_of_opOf_encode {i : Instr} (h : opOf (encode i) = 0x9) : i = .fclr := by
  cases i <;> simp_all [encode, opOf_assembleWord]

/-- Settles O17: FCLR writes the cleared FILT, whose word is 0x14 and no other FILT's; no command
encodes to another word with OP 9. -/
theorem fclrRule : Obligations.FclrRule := by
  refine ⟨runsAs_of_decode rfl, exec_eq_effect .fclr, ?reads, ?already_clear, ?illegal⟩
  case reads =>
    intro s t run
    rw [exec_next run, hostRead_filt, commandEffect_filt, commandFilt, toWord_cleared]
  case already_clear =>
    intro s read
    rw [hostRead_filt, ← toWord_cleared] at read
    have clear : s.filt = Filt.cleared := toWord_injective (congrArg Prod.fst read)
    rw [exec_eq_effect, commandEffect, State.setFilt, ← clear]
  case illegal =>
    rintro _ op other
    apply raisesIll_of_forall_encode_ne
    rintro i rfl
    rw [eq_fclr_of_opOf_encode op] at other
    exact other rfl

/-! ### What a move does to FILT -/

theorem commandOf_write_eq_some {a : BitVec 7} {w : Word} {i : Instr}
    (h : commandOf (.write a w) = some i) : a = 0x7C ∧ decode w = .ok i := by
  rw [commandOf] at h
  split_ifs at h with ha
  cases hd : decode w with
  | error e => simp [hd, Except.toOption] at h
  | ok j => simp_all [Except.toOption]

/-- A move that runs a command has the command's effect. -/
theorem moveEffect_of_commandOf {m : HostMove} {i : Instr} (h : commandOf m = some i) (s : State) :
    moveEffect m s = commandEffect i s := by
  cases m with
  | read a => cases h
  | reset => cases h
  | write a w =>
    obtain ⟨rfl, legal⟩ := commandOf_write_eq_some h
    have written : moveEffect (.write 0x7C w) s = wordEffect w s := rfl
    rw [written, wordEffect, legal]

/-- A move that runs no command writes FILT only as a reset or as a host write of FILT. -/
theorem moveEffect_filt_of_no_command {m : HostMove} (h : ¬ MayRearm m)
    (no_command : commandOf m = none) (s : State) : (moveEffect m s).filt = s.filt := by
  cases m with
  | reset => exact absurd (Or.inl rfl) h
  | read a => rcases hostRead_cases a s with read | read <;> simp [moveEffect, read]
  | write a w =>
    rcases writeEffect_cases a w s with write | ⟨rfl, write⟩ | ⟨r, _, rfl, write⟩ <;>
      rw [moveEffect, write]
    · exact raiseHerr_filt s
    · cases illegal : decode w with
      | ok i => simp [commandOf, illegal, Except.toOption] at no_command
      | error e => rw [wordEffect, illegal, raiseIll_filt]
    · cases r with
      | filt => exact absurd (Or.inr (Or.inr ⟨w, rfl⟩)) h
      | _ => simp [State.writeReg]

/-- The word of FCLR is the only one that runs it, so a move that may not rearm does not run it. -/
theorem ne_fclr_of_commandOf {m : HostMove} {i : Instr} (h : ¬ MayRearm m)
    (run : commandOf m = some i) : i ≠ .fclr := by
  rintro rfl
  cases m with
  | read a => cases run
  | reset => cases run
  | write a w =>
    obtain ⟨rfl, legal⟩ := commandOf_write_eq_some run
    exact h (Or.inr (Or.inl (congrArg _ (encode_of_decode legal).symm)))

/-- What a move that may not rearm does to FILT: nothing, or what a command other than FCLR does. -/
theorem moveEffect_filt_cases {m : HostMove} (h : ¬ MayRearm m) (s : State) :
    (commandOf m = none ∧ (moveEffect m s).filt = s.filt) ∨
      ∃ i, i ≠ .fclr ∧ commandOf m = some i ∧ (moveEffect m s).filt = commandFilt i s := by
  cases run : commandOf m with
  | none => exact Or.inl ⟨rfl, moveEffect_filt_of_no_command h run s⟩
  | some i =>
    refine Or.inr ⟨i, ne_fclr_of_commandOf h run, rfl, ?_⟩
    rw [moveEffect_of_commandOf run, commandEffect_filt]

/-! ### OK and VOK never relax (R215) -/

theorem commandFilt_ok_false {i : Instr} {s : State} (h : i ≠ .fclr) (ok : s.filt.ok = false) :
    (commandFilt i s).ok = false := by
  cases i with
  | fclr => exact absurd rfl h
  | evalA stage v => exact accumulate_ok_false _ ok
  | _ => exact ok

theorem commandFilt_vok_false {i : Instr} {s : State} (h : i ≠ .fclr) (vok : s.filt.vok = false) :
    (commandFilt i s).vok = false := by
  cases i with
  | fclr => exact absurd rfl h
  | evalA stage v => rw [commandFilt, accumulate_vok, vok]
  | decryptA => rw [commandFilt, validate_vok, recordMatch_vok, vok, Bool.false_and]
  | _ => exact vok

/-- What every command but FCLR keeps of FILT, every step keeps while no move at the port may
rearm. -/
theorem step_keeps_of_commandFilt {P : Filt → Prop}
    (commands : ∀ {i s}, i ≠ .fclr → P s.filt → P (commandFilt i s)) (s t : State)
    (h : P s.filt ∧ ∀ m ∈ s.port, ¬ MayRearm m) (run : step s = .next t) :
    P t.filt ∧ ∀ m ∈ t.port, ¬ MayRearm m := by
  obtain ⟨before, quiet⟩ := h
  rcases step_cases run with ⟨_, rfl⟩ | ⟨m, rest, hport, rfl⟩
  · exact ⟨before, quiet⟩
  rw [hport] at quiet
  obtain ⟨quiet_m, quiet_rest⟩ := List.forall_mem_cons.mp quiet
  constructor
  · rcases moveEffect_filt_cases quiet_m { s with port := rest } with ⟨_, same⟩ | ⟨i, hi, _, run⟩
    · rwa [same]
    · rw [run]
      exact commands hi before
  · rwa [moveEffect_port]

/-- Settles O35: a command other than FCLR clears OK and VOK or leaves them, and a step is such a
command or leaves FILT alone. -/
theorem verdictsNeverRelax : Obligations.VerdictsNeverRelax := by
  refine ⟨?commands, step_keeps_of_commandFilt (P := fun f => f.ok = false) commandFilt_ok_false,
    step_keeps_of_commandFilt (P := fun f => f.vok = false) commandFilt_vok_false⟩
  case commands =>
    intro i s t hi run
    rw [exec_next run, commandEffect_filt]
    exact ⟨commandFilt_ok_false hi, commandFilt_vok_false hi⟩

end Sys2Proof.Machine
end

section
/-! PROOFS. The verdicts FILT holds after FCLR and any moves that may not rearm it, and after one
EVAL.A or DECRYPT.A for each of a list of pairs (spec/45_filter.md R214, R216). -/

namespace Sys2Proof.Machine

open Sys2Proof.Claims

/-! ### The state a run leads to -/

/-- The state a list of moves leads to. -/
def movesEffect (moves : List HostMove) (s : State) : State :=
  moves.foldl (fun t m => moveEffect m t) s

theorem movesEffect_cons (m : HostMove) (moves : List HostMove) (s : State) :
    movesEffect (m :: moves) s = movesEffect moves (moveEffect m s) := rfl

theorem movesEffect_append (first second : List HostMove) (s : State) :
    movesEffect (first ++ second) s = movesEffect second (movesEffect first s) :=
  List.foldl_append

theorem movesEffect_withPort (moves : List HostMove) (s : State) (waiting : List HostMove) :
    movesEffect moves { s with port := waiting } =
      { movesEffect moves s with port := waiting } := by
  induction moves generalizing s with
  | nil => rfl
  | cons m rest ih => rw [movesEffect_cons, moveEffect_withPort, ih, movesEffect_cons]

/-- Every run answers the effect of its moves, with no move left. -/
theorem runMoves_eq_effect (moves : List HostMove) (s : State) :
    runMoves moves s = .next { movesEffect moves s with port := [] } := by
  induction moves generalizing s with
  | nil => exact runMoves_nil s
  | cons m rest ih =>
    rw [runMoves_cons, moveEffect_withPort, ih, movesEffect_withPort, movesEffect_cons]

/-! ### What a list of moves gathers -/

theorem gathered_nil (item : HostMove → State → List Bool) (s : State) :
    gathered item [] s = [] := rfl

theorem gathered_cons (item : HostMove → State → List Bool) (m : HostMove) (moves : List HostMove)
    (s : State) :
    gathered item (m :: moves) s = item m s ++ gathered item moves (moveEffect m s) := by
  rw [gathered, accept_eq_effect]

theorem gathered_append (item : HostMove → State → List Bool) (first second : List HostMove)
    (s : State) :
    gathered item (first ++ second) s =
      gathered item first s ++ gathered item second (movesEffect first s) := by
  induction first generalizing s with
  | nil => rfl
  | cons m rest ih =>
    rw [List.cons_append, gathered_cons, ih, gathered_cons, List.append_assoc, movesEffect_cons]

/-- A record that every move that may not rearm FILT keeps, with the move's items added at its end,
holds after any list of such moves. -/
theorem movesEffect_records {item : HostMove → State → List Bool}
    {Records : Filt → List Bool → Prop}
    (keeps : ∀ {m s bits}, ¬ MayRearm m → Records s.filt bits →
      Records (moveEffect m s).filt (bits ++ item m s))
    {moves : List HostMove} (quiet : ∀ m ∈ moves, ¬ MayRearm m) {s : State} {bits : List Bool}
    (h : Records s.filt bits) :
    Records (movesEffect moves s).filt (bits ++ gathered item moves s) := by
  induction moves generalizing s bits with
  | nil => rwa [gathered, List.append_nil]
  | cons m rest ih =>
    obtain ⟨quiet_m, quiet_rest⟩ := List.forall_mem_cons.mp quiet
    rw [gathered_cons, ← List.append_assoc]
    exact ih quiet_rest (keeps quiet_m h)

/-! ### The record of the filter (R214) -/

theorem accumulatedBy_evalA {m : HostMove} {stage : Stage} {v : Variant}
    (h : commandOf m = some (.evalA stage v)) (s : State) :
    accumulatedBy m s = [s.evaluator stage v] := by
  rw [accumulatedBy, h]

theorem accumulatedBy_no_command {m : HostMove} (h : commandOf m = none) (s : State) :
    accumulatedBy m s = [] := by
  rw [accumulatedBy, h]

/-- FILT's record of the bits is one of SEEN, REF and OK alone. -/
theorem filterRecords_congr {f g : Filt} {bits : List Bool} (h : FilterRecords f bits)
    (seen : g.seen = f.seen) (ref : g.ref = f.ref) (ok : g.ok = f.ok) : FilterRecords g bits := by
  cases bits <;> simpa only [FilterRecords, seen, ref, ok] using h

/-- FiltAcc adds its bit to the record. -/
theorem filterRecords_accumulate {f : Filt} {bits : List Bool} (h : FilterRecords f bits)
    (b : Bool) : FilterRecords (f.accumulate b) (bits ++ [b]) := by
  cases bits with
  | nil =>
    obtain ⟨seen, ok⟩ := h
    rw [accumulate_first b seen]
    simp [FilterRecords, ok]
  | cons a rest =>
    obtain ⟨seen, rfl, ok⟩ := h
    have constant_iff : (∀ c ∈ f.ref :: rest ++ [b], c = f.ref) ↔ f.ok = true ∧ b = f.ref := by
      rw [ok, List.forall_mem_append, List.forall_mem_singleton]
    by_cases agrees : b = f.ref
    · rw [accumulate_agrees seen agrees]
      exact ⟨seen, rfl, (constant_iff.trans (and_iff_left agrees)).symm⟩
    · rw [accumulate_differs seen agrees]
      exact ⟨seen, rfl, iff_of_false Bool.false_ne_true fun constant =>
        agrees (constant_iff.mp constant).right⟩

/-- A move that may not rearm adds to the record the bit it accumulates, if any. -/
theorem moveEffect_filterRecords {m : HostMove} {s : State} {bits : List Bool} (hm : ¬ MayRearm m)
    (h : FilterRecords s.filt bits) :
    FilterRecords (moveEffect m s).filt (bits ++ accumulatedBy m s) := by
  rcases moveEffect_filt_cases hm s with ⟨no_command, same⟩ | ⟨i, hi, runs, filt⟩
  · rwa [same, accumulatedBy_no_command no_command, List.append_nil]
  rw [filt]
  cases i with
  | fclr => exact absurd rfl hi
  | evalA stage v =>
    rw [accumulatedBy_evalA runs]
    exact filterRecords_accumulate h _
  | _ =>
    rw [accumulatedBy, runs, List.append_nil]
    exact filterRecords_congr h rfl rfl rfl

/-! ### The record of the validation (R216) -/

theorem validatedBy_no_command {m : HostMove} (h : commandOf m = none) (s : State) :
    validatedBy m s = [] := by
  rw [validatedBy, h]

theorem decryptMatches_eq_decide_block (s : State) :
    s.decryptMatches = decide (decryptBlock s.cipherBlock s.subkeys = s.plainBlock) := by
  rw [decryptMatches_eq_decide, State.plainBlock, State.decrypted]
  exact decide_eq_decide.mpr (Block.mk.injEq _ _ _ _).symm.to_iff

theorem validatedBy_decryptA {m : HostMove} (h : commandOf m = some .decryptA) (s : State) :
    validatedBy m s = [s.decryptMatches] := by
  rw [validatedBy, h, decryptMatches_eq_decide_block]

/-- DECRYPT.A adds its compare to the record. -/
theorem validationRecords_validate {f : Filt} {compares : List Bool}
    (h : ValidationRecords f compares) (m : Bool) :
    ValidationRecords (f.validate m) (compares ++ [m]) := by
  rw [ValidationRecords] at h
  simp [ValidationRecords, h, or_imp, forall_and]

/-- A move that may not rearm adds to the record the compare it folds into VOK, if any. -/
theorem moveEffect_validationRecords {m : HostMove} {s : State} {compares : List Bool}
    (hm : ¬ MayRearm m) (h : ValidationRecords s.filt compares) :
    ValidationRecords (moveEffect m s).filt (compares ++ validatedBy m s) := by
  rcases moveEffect_filt_cases hm s with ⟨no_command, same⟩ | ⟨i, hi, runs, filt⟩
  · rwa [same, validatedBy_no_command no_command, List.append_nil]
  rw [filt]
  cases i with
  | fclr => exact absurd rfl hi
  | decryptA =>
    rw [validatedBy_decryptA runs]
    exact validationRecords_validate (f := s.filt.recordMatch s.decryptMatches) h _
  | evalA stage v =>
    rw [validatedBy, runs, List.append_nil, commandFilt, ValidationRecords, accumulate_vok]
    exact h
  | _ =>
    rw [validatedBy, runs, List.append_nil]
    exact h

/-! ### The records after FCLR -/

theorem commandOf_fclr : commandOf (.write 0x7C 0x90000000) = some .fclr := rfl

theorem moveEffect_fclr (s : State) :
    moveEffect (.write 0x7C 0x90000000) s = s.setFilt Filt.cleared :=
  moveEffect_of_commandOf commandOf_fclr s

theorem accumulatedBy_fclr (s : State) : accumulatedBy (.write 0x7C 0x90000000) s = [] := by
  rw [accumulatedBy, commandOf_fclr]

theorem validatedBy_fclr (s : State) : validatedBy (.write 0x7C 0x90000000) s = [] := by
  rw [validatedBy, commandOf_fclr]

theorem filterRecords_cleared : FilterRecords Filt.cleared [] :=
  ⟨rfl, rfl⟩

theorem validationRecords_cleared : ValidationRecords Filt.cleared [] :=
  iff_of_true rfl (List.forall_mem_nil _)

/-- After FCLR and moves that may not rearm, the filter's record is of the bits accumulated. -/
theorem filterRecords_after_fclr {moves : List HostMove} (quiet : ∀ m ∈ moves, ¬ MayRearm m)
    (s : State) :
    FilterRecords (movesEffect (.write 0x7C 0x90000000 :: moves) s).filt
      (accumulated (.write 0x7C 0x90000000 :: moves) s) := by
  rw [accumulated, gathered_cons, accumulatedBy_fclr, movesEffect_cons, moveEffect_fclr]
  exact movesEffect_records moveEffect_filterRecords quiet filterRecords_cleared

/-- After FCLR and moves that may not rearm, the validation's record is of the compares made. -/
theorem validationRecords_after_fclr {moves : List HostMove} (quiet : ∀ m ∈ moves, ¬ MayRearm m)
    (s : State) :
    ValidationRecords (movesEffect (.write 0x7C 0x90000000 :: moves) s).filt
      (validated (.write 0x7C 0x90000000 :: moves) s) := by
  rw [validated, gathered_cons, validatedBy_fclr, movesEffect_cons, moveEffect_fclr]
  exact movesEffect_records moveEffect_validationRecords quiet validationRecords_cleared

/-! ### One command for each pair -/

/-- The state with a pair loaded. -/
def State.withPair (s : State) (p : Pair) : State :=
  { s with pl := p.pl, pr := p.pr, cl := p.cl, cr := p.cr }

/-- LDPAIR and the command, for each pair. -/
def pairMoves (i : Instr) (pairs : List Pair) : List HostMove :=
  expandProgram (pairs.flatMap fun p => [.ldpair p, .command i])

theorem pairMoves_cons (i : Instr) (p : Pair) (pairs : List Pair) :
    pairMoves i (p :: pairs) = expand (.ldpair p) ++ wrMove .cmd (encode i) :: pairMoves i pairs :=
  rfl

theorem pairMoves_append (i : Instr) (first second : List Pair) :
    pairMoves i (first ++ second) = pairMoves i first ++ pairMoves i second := by
  rw [pairMoves, List.flatMap_append, expandProgram, List.flatMap_append]
  rfl

theorem expandProgram_filterProgram (stage : Stage) (v : Variant) (pairs : List Pair) :
    expandProgram (filterProgram stage v pairs) =
      .write 0x7C 0x90000000 :: pairMoves (.evalA stage v) pairs := rfl

theorem expandProgram_validationProgram (pairs : List Pair) :
    expandProgram (validationProgram pairs) =
      .write 0x7C 0x90000000 :: pairMoves .decryptA pairs := rfl

theorem movesEffect_ldpair (p : Pair) (s : State) :
    movesEffect (expand (.ldpair p)) s = s.withPair p := rfl

theorem commandOf_encode (i : Instr) : commandOf (wrMove .cmd (encode i)) = some i := by
  have at_cmd : commandOf (wrMove .cmd (encode i)) = (decode (encode i)).toOption := rfl
  rw [at_cmd, decode_encode]
  rfl

theorem movesEffect_pairMoves_cons (i : Instr) (p : Pair) (pairs : List Pair) (s : State) :
    movesEffect (pairMoves i (p :: pairs)) s =
      movesEffect (pairMoves i pairs) (commandEffect i (s.withPair p)) := by
  rw [pairMoves_cons, movesEffect_append, movesEffect_ldpair, movesEffect_cons,
    moveEffect_of_commandOf (commandOf_encode i)]

/-- What LDPAIR and the command keep of the state, a list of them keeps. -/
theorem movesEffect_pairMoves_keeps {α : Type} {get : State → α} {i : Instr}
    (keeps : ∀ p s, get (commandEffect i (s.withPair p)) = get s) (pairs : List Pair) (s : State) :
    get (movesEffect (pairMoves i pairs) s) = get s := by
  induction pairs generalizing s with
  | nil => rfl
  | cons p rest ih => rw [movesEffect_pairMoves_cons, ih, keeps]

theorem commandOf_wrMove_data (r : DataReg) (v : Word) : commandOf (wrMove (.data r) v) = none := by
  cases r <;> rfl

/-- LDPAIR runs no command, so it adds no item. -/
theorem gathered_ldpair {item : HostMove → State → List Bool}
    (silent : ∀ {m}, commandOf m = none → ∀ s, item m s = []) (p : Pair) (s : State) :
    gathered item (expand (.ldpair p)) s = [] := by
  simp only [expand, gathered_cons, gathered_nil, silent (commandOf_wrMove_data _ _),
    List.append_nil]

/-- If the command adds one item for each pair, that the earlier pairs do not change, the list adds
the items of its pairs. -/
theorem gathered_pairMoves {item : HostMove → State → List Bool} {i : Instr}
    {result : State → Pair → Bool} (silent : ∀ {m}, commandOf m = none → ∀ s, item m s = [])
    (gives : ∀ p s, item (wrMove .cmd (encode i)) (s.withPair p) = [result s p])
    (keeps : ∀ p s, result (commandEffect i (s.withPair p)) = result s) (pairs : List Pair)
    (s : State) : gathered item (pairMoves i pairs) s = pairs.map (result s) := by
  induction pairs generalizing s with
  | nil => rfl
  | cons p rest ih =>
    rw [pairMoves_cons, gathered_append, gathered_ldpair silent, movesEffect_ldpair, gathered_cons,
      gives, moveEffect_of_commandOf (commandOf_encode i), ih, keeps]
    rfl

theorem not_mayRearm_wrMove_data (r : DataReg) (v : Word) : ¬ MayRearm (wrMove (.data r) v) := by
  cases r <;> simp [MayRearm, wrMove, regOffset, regIndex]

theorem not_mayRearm_command {i : Instr} (hi : i ≠ .fclr) :
    ¬ MayRearm (wrMove .cmd (encode i)) := by
  intro rearms
  have word : encode i = 0x90000000 := by
    simpa [MayRearm, wrMove, regOffset, regIndex] using rearms
  have decoded : decode 0x90000000 = .ok i := word ▸ decode_encode i
  exact hi (Except.ok.inj decoded).symm

theorem not_mayRearm_pairMoves {i : Instr} (hi : i ≠ .fclr) (pairs : List Pair) :
    ∀ m ∈ pairMoves i pairs, ¬ MayRearm m := by
  induction pairs with
  | nil => exact List.forall_mem_nil _
  | cons p rest ih =>
    simpa [pairMoves_cons, expand, not_mayRearm_wrMove_data, not_mayRearm_command hi] using ih

/-! ### The programs of R214 and R216 -/

/-- The bits of R214's program are those of its pairs, under the subkeys and the candidate it starts
with. -/
theorem accumulated_filterProgram (stage : Stage) (v : Variant) (pairs : List Pair) (s : State) :
    accumulated (.write 0x7C 0x90000000 :: pairMoves (.evalA stage v) pairs) s =
      pairs.map fun p => evalBit (approxEntry s.approx stage v) p s.k0 s.k1 s.k2 s.cand := by
  rw [accumulated, gathered_cons, accumulatedBy_fclr, moveEffect_fclr]
  exact gathered_pairMoves
    (result := fun t p => evalBit (approxEntry t.approx stage v) p t.k0 t.k1 t.k2 t.cand)
    accumulatedBy_no_command (fun p t => accumulatedBy_evalA (commandOf_encode _) (t.withPair p))
    (fun _ _ => rfl) pairs _

/-- DECRYPT.A keeps the subkeys. -/
theorem subkeys_decryptA_withPair (p : Pair) (s : State) :
    (commandEffect .decryptA (s.withPair p)).subkeys = s.subkeys := rfl

/-- The compare of a pair under given subkeys (42_decrypt.md R143). -/
def pairDecrypts (k : Subkeys) (p : Pair) : Bool :=
  decide (decryptBlock ⟨p.cl, p.cr⟩ k = ⟨p.pl, p.pr⟩)

theorem pairDecrypts_iff (k : Subkeys) (p : Pair) :
    pairDecrypts k p = true ↔ decryptBlock ⟨p.cl, p.cr⟩ k = ⟨p.pl, p.pr⟩ :=
  decide_eq_true_iff

theorem decryptMatches_withPair (s : State) (p : Pair) :
    (s.withPair p).decryptMatches = pairDecrypts s.subkeys p :=
  decryptMatches_eq_decide_block (s.withPair p)

/-- The compares of R216's program are those of its pairs, under the subkeys it starts with. -/
theorem validated_validationProgram (pairs : List Pair) (s : State) :
    validated (.write 0x7C 0x90000000 :: pairMoves .decryptA pairs) s =
      pairs.map (pairDecrypts s.subkeys) := by
  rw [validated, gathered_cons, validatedBy_fclr, moveEffect_fclr]
  refine gathered_pairMoves (result := fun t => pairDecrypts t.subkeys) validatedBy_no_command
    (fun p t => ?gives) (fun p t => ?keeps) pairs _
  case gives => rw [validatedBy_decryptA (commandOf_encode _), decryptMatches_withPair]
  case keeps => rw [subkeys_decryptA_withPair]

/-- MATCH is the compare of the last pair. -/
theorem matched_after_last_pair (earlier : List Pair) (p : Pair) (s : State) :
    (movesEffect (pairMoves .decryptA (earlier ++ [p])) s).filt.matched =
      pairDecrypts s.subkeys p := by
  have subkeys : (movesEffect (pairMoves .decryptA earlier) s).subkeys = s.subkeys :=
    movesEffect_pairMoves_keeps subkeys_decryptA_withPair earlier s
  rw [pairMoves_append, movesEffect_append, movesEffect_pairMoves_cons, ← subkeys,
    ← decryptMatches_withPair]
  rfl

/-! ### The verdicts -/

/-- What the record says of a list whose elements gave the bits. -/
theorem verdict_of_filterRecords_map {α : Type} {f : Filt} {bit : α → Bool} {xs : List α}
    (h : FilterRecords f (xs.map bit)) :
    (xs = [] → f.seen = false ∧ f.ok = true) ∧
      ∀ x rest, xs = x :: rest →
        f.seen = true ∧ f.ref = bit x ∧ (f.ok = true ↔ ∀ y ∈ xs, bit y = bit x) := by
  constructor
  · rintro rfl
    exact h
  · rintro x rest rfl
    obtain ⟨seen, ref, ok⟩ := h
    rw [← List.map_cons, List.forall_mem_map] at ok
    exact ⟨seen, ref, ok⟩

/-- Settles O34: FILT records the bits accumulated after FCLR, and those of the program are its
pairs' bits. -/
theorem filterVerdict : Obligations.FilterVerdict := by
  constructor
  · intro stage v s pairs
    have records := filterRecords_after_fclr
      (not_mayRearm_pairMoves (i := .evalA stage v) (by simp) pairs) s
    rw [accumulated_filterProgram] at records
    rw [expandProgram_filterProgram]
    exact ⟨_, runMoves_eq_effect _ s, verdict_of_filterRecords_map records⟩
  · intro s moves quiet
    have records := filterRecords_after_fclr quiet s
    rw [← List.map_id (accumulated _ s)] at records
    exact ⟨_, runMoves_eq_effect _ s, verdict_of_filterRecords_map records⟩

/-- Settles O36: VOK records the compares made after FCLR, those of the program are its pairs'
compares, and MATCH is the last of them. -/
theorem validationVerdict : Obligations.ValidationVerdict := by
  constructor
  · intro s pairs
    have records := validationRecords_after_fclr
      (not_mayRearm_pairMoves (i := .decryptA) (by simp) pairs) s
    rw [validated_validationProgram, ValidationRecords, List.forall_mem_map] at records
    simp only [pairDecrypts_iff] at records
    rw [expandProgram_validationProgram]
    refine ⟨_, runMoves_eq_effect _ s, records, ?last⟩
    case last =>
      rintro earlier p rfl
      have last := matched_after_last_pair earlier p (s.setFilt Filt.cleared)
      rw [← moveEffect_fclr, ← movesEffect_cons] at last
      exact (Bool.eq_iff_iff.mp last).trans (pairDecrypts_iff _ p)
  · intro s moves quiet
    exact ⟨_, runMoves_eq_effect _ s, validationRecords_after_fclr quiet s⟩

end Sys2Proof.Machine
end

section
/-! PROOFS. YGEN and KDERIVE, and that the derived whitening keys are the only ones under which the
loaded pair encrypts (spec/46_derive.md R231 to R233). -/

namespace Sys2Proof.Machine

open Sys2Proof.Claims

/-! ### The words (R92, R99) -/

/-- An OP of one command leaves every other word of that OP illegal. -/
theorem raisesIll_of_only_command {op : BitVec 4} {i : Instr}
    (only : ∀ j, opOf (encode j) = op → j = i) :
    ∀ w, opOf w = op → w ≠ encode i → RaisesIll w := by
  intro w hop other
  apply raisesIll_of_forall_encode_ne
  rintro j rfl
  exact other (congrArg encode (only j hop))

theorem eq_ygen_of_opOf_encode (i : Instr) (h : opOf (encode i) = 0x7) : i = .ygen := by
  cases i <;> simp_all [encode, opOf_assembleWord]

theorem eq_kderive_of_opOf_encode (i : Instr) (h : opOf (encode i) = 0x8) : i = .kderive := by
  cases i <;> simp_all [encode, opOf_assembleWord]

/-! ### YGEN (R231) -/

/-- Settles O18: YGEN's effect is `setYs` of the loaded pair's round outputs; no command encodes to
another word with OP 7; and the rule's two sets of round outputs. -/
theorem ygenRule : Obligations.YgenRule :=
  ⟨runsAs_encode .ygen, exec_eq_effect .ygen, raisesIll_of_only_command eq_ygen_of_opOf_encode,
    by decide, by decide⟩

/-! ### The whitening keys of a pair (R232) -/

/-- A key encrypts a plaintext to a ciphertext exactly when its K4 and K5 are the derived ones:
each half of the ciphertext is what the rounds give XORed with its whitening key. -/
theorem encryptBlock_eq_iff (p c : Block) (k : Subkeys) :
    encryptBlock p k = c ↔
      k.k4 = k4Of p.left p.right c.left (ys p.left p.right k.k0 k.k1 k.k2 k.k3) ∧
      k.k5 = k5Of p.right c.right (ys p.left p.right k.k0 k.k1 k.k2 k.k3) := by
  have halves : encryptBlock p k = c ↔
      (encryptBlock p k).left = c.left ∧ (encryptBlock p k).right = c.right :=
    (Block.mk.injEq ..).to_iff
  have reordered (r y0 y1 y2 y3 c : Word) :
      r ^^^ y0 ^^^ y1 ^^^ y2 ^^^ y3 ^^^ c = r ^^^ y1 ^^^ y3 ^^^ y0 ^^^ y2 ^^^ c := by ac_rfl
  rw [halves, encryptBlock_left, encryptBlock_right, xor_eq_iff_right_eq, xor_eq_iff_right_eq,
    reordered, k4Of, k5Of]

/-- The loaded subkeys after KDERIVE encrypt the loaded plaintext to the loaded ciphertext. -/
theorem encryptBlock_after_kderive (s : State) :
    encryptBlock s.plainBlock (commandEffect .kderive s).subkeys = s.cipherBlock :=
  (encryptBlock_eq_iff _ _ _).mpr ⟨rfl, rfl⟩

/-- KDERIVE writes neither half of the pair, so DECRYPT after it undoes that encryption. -/
theorem decrypted_after_kderive (s : State) :
    (commandEffect .kderive s).decrypted = (commandEffect .kderive s).plainBlock :=
  calc (commandEffect .kderive s).decrypted
      = decryptBlock s.cipherBlock (commandEffect .kderive s).subkeys := rfl
    _ = s.plainBlock := by rw [← encryptBlock_after_kderive, decryptBlock_encryptBlock]
    _ = (commandEffect .kderive s).plainBlock := rfl

/-- With a pair of the key and its K0..K3, KDERIVE finds its K4 and K5. -/
theorem whitening_after_kderive {s : State} {k : Subkeys} {plain : Block}
    (hpair : s.pair = pairUnder k plain) (hk0 : s.k0 = k.k0) (hk1 : s.k1 = k.k1)
    (hk2 : s.k2 = k.k2) (hk3 : s.k3 = k.k3) :
    (commandEffect .kderive s).k4 = k.k4 ∧ (commandEffect .kderive s).k5 = k.k5 := by
  obtain ⟨hpl, hpr, hcl, hcr⟩ := (Pair.mk.injEq ..).to_iff.mp hpair
  obtain ⟨k4_derived, k5_derived⟩ := (encryptBlock_eq_iff plain _ k).mp rfl
  rw [k4_derived, k5_derived, ← hpl, ← hpr, ← hcl, ← hcr, ← hk0, ← hk1, ← hk2, ← hk3]
  exact ⟨rfl, rfl⟩

/-- Settles O32: the derived keys are the only ones that encrypt the pair, so DECRYPT undoes the
encryption under them, and a key that encrypted the pair has them. -/
theorem derivedKeysReproduceThePair : Obligations.DerivedKeysReproduceThePair := by
  refine ⟨fun _ _ _ _ _ _ _ _ => ⟨rfl, rfl⟩, fun s => ?reproduces, ?true_key⟩
  case reproduces =>
    exact ⟨_, _, exec_eq_effect .kderive s, exec_decrypt_of_decrypted_eq (decrypted_after_kderive s),
      rfl, rfl, rfl⟩
  case true_key =>
    intro k plain s hpair hk0 hk1 hk2 hk3
    exact ⟨_, exec_eq_effect .kderive s, whitening_after_kderive hpair hk0 hk1 hk2 hk3⟩

/-! ### KDERIVE (R233) -/

/-- The rule's second pair, under the test key but for a wrong K3. -/
def wrongK3State : State :=
  loaded ⟨0x01234567, 0x89ABCDEF, 0x915FFA15, 0x667E794D⟩ { testKey with k3 := 0x76543211 }

theorem kderive_wrongK3State :
    (commandEffect .kderive wrongK3State).k4 = 0x011D7DCC ∧
      (commandEffect .kderive wrongK3State).k5 = 0x322E4EFF := by decide

theorem decryptBlock_wrongK3 :
    decryptBlock ⟨0xF4C3198E, 0x39073A30⟩
      { testKey with k3 := 0x76543211, k4 := 0x011D7DCC, k5 := 0x322E4EFF } =
      ⟨0xFE677476, 0xA8F2C5B4⟩ := by decide

/-- Settles O19: KDERIVE's effect from every state; no command encodes to another word with OP 8;
the example is a pair of the test key, and the wrong K3 gives a key that the test ciphertext tells
from it. -/
theorem kderiveRule : Obligations.KderiveRule := by
  refine ⟨runsAs_encode .kderive, exec_eq_effect .kderive,
    raisesIll_of_only_command eq_kderive_of_opOf_encode, ?test_key, ?wrong_k3⟩
  case test_key =>
    intro t run
    rw [exec_next run]
    exact whitening_after_kderive (k := testKey) pairUnder_testKey.symm rfl rfl rfl rfl
  case wrong_k3 =>
    intro t run
    obtain ⟨k4, k5⟩ := kderive_wrongK3State
    have subkeys : (commandEffect .kderive wrongK3State).subkeys =
        { testKey with k3 := 0x76543211, k4 := 0x011D7DCC, k5 := 0x322E4EFF } := by
      rw [State.subkeys, k4, k5]
      rfl
    rw [exec_next run]
    exact ⟨k4, k5, (congrArg _ subkeys).trans decryptBlock_wrongK3⟩

end Sys2Proof.Machine
end

section
/-! PROOFS. NOP: the null word is the only word with OP 0 that runs (spec/47_misc.md R250). -/

namespace Sys2Proof.Machine

open Sys2Proof.Claims

/-- NOP is the one command with OP 0. -/
theorem eq_nop_of_opOf_encode (i : Instr) (h : opOf (encode i) = 0x0) : i = .nop := by
  cases i with
  | nop => rfl
  | _ => simp [encode, opOf_assembleWord] at h

/-- Settles O10: NOP's word is the null word, its effect is the state it ran from, and no command
encodes to another word with OP 0. -/
theorem nopRule : Obligations.NopRule :=
  ⟨runsAs_encode .nop, exec_eq_effect .nop, raisesIll_of_only_command eq_nop_of_opOf_encode⟩

end Sys2Proof.Machine
end

section
/-! PROOFS. Decoding an encoded command, the sample words, and the command a placed word runs
(spec/30_encoding.md R98, R102; spec/20_memory.md R66). -/

namespace Sys2Proof.Machine

open Sys2Proof.Claims

/-- Settles O37: every field of an assembled word is read back, and BUILDI's index fills the low
twelve bits of IMM20. -/
theorem decodeOfEncode : Obligations.DecodeOfEncode := decode_encode

/-- Settles O40: each of the words is the encoding of its command. -/
theorem sampleWordsDecode : Obligations.SampleWordsDecode :=
  ⟨decode_encode .nop, decode_encode .xform, decode_encode .decryptA,
    decode_encode (.eval .k1 .outer), decode_encode (.evalA .k3 .outer),
    decode_encode (.buildi 2210), decode_encode (.buildo 0x01670), decode_encode (.kset .k3),
    decode_encode .kderive, decode_encode .fclr⟩

theorem decodeTableWord_eq_some {nbits w : Nat} {i : Instr} (h : decodeTableWord nbits w = some i) :
    decode (BitVec.ofNat 32 (w % 2 ^ nbits)) = .ok i := by
  rw [decodeTableWord] at h
  cases decoded : decode (BitVec.ofNat 32 (w % 2 ^ nbits)) with
  | ok j => rw [decoded] at h; rw [Option.some.inj h]
  | error e => rw [decoded] at h; cases h

/-- Settles O42: the placed move is a write of the word to CMD, and taking it off the port gives the
state back. -/
theorem placedWordRunsNext : Obligations.PlacedWordRunsNext := by
  intro s w i legal
  rw [step_write_cmd (withFetchWord_port s 32 w), withFetchWord_eraseHead,
    runCommand_legal s (decodeTableWord_eq_some legal)]

end Sys2Proof.Machine
end

section
/-! PROOFS. The kinds of host move and what each does: an erring access, a read or a write of a
register, a legal or an illegal command word, a reset (spec/20_memory.md R63 to R66,
spec/60_exceptions.md R261, R262, spec/70_reset_and_hazards.md R290). -/

namespace Sys2Proof.Machine

open Sys2Proof.Claims

/-! ### Offsets -/

theorem eq_regOffset_of_slotAt {a : BitVec 7} {r : WindowReg} (aligned : a.toNat % 4 = 0)
    (h : slotAt (indexOf a) = some r) : a = regOffset r := by
  have all : ∀ a : BitVec 7, a.toNat % 4 = 0 → a = indexOf a ++ (0 : BitVec 2) := by decide
  rw [regOffset, ← slotAt_eq_some h]
  exact all a aligned

/-- An offset is misaligned, of a reserved index, or that of a register (20_memory.md R67). -/
theorem offset_cases (a : BitVec 7) :
    a.toNat % 4 ≠ 0 ∨ reservedOffset a ∨ ∃ r, a = regOffset r := by
  by_cases aligned : a.toNat % 4 = 0
  · cases slot : slotAt (indexOf a) with
    | none =>
      rw [slotAt_eq_none_iff, indexOf_toNat] at slot
      exact Or.inr (Or.inl slot)
    | some r => exact Or.inr (Or.inr ⟨r, eq_regOffset_of_slotAt aligned slot⟩)
  · exact Or.inl aligned

theorem regOffset_inj {r r' : WindowReg} : regOffset r = regOffset r' ↔ r = r' := by
  refine ⟨fun h => ?_, congrArg regOffset⟩
  have slots := congrArg (fun a => slotAt (indexOf a)) h
  simpa using slots

theorem isAligned_eq_false {a : BitVec 7} (h : a.toNat % 4 ≠ 0) : isAligned a = false :=
  Bool.eq_false_iff.mpr (mt (isAligned_iff a).mp h)

/-- The offset of a register is aligned and not of a reserved index. -/
theorem regOffset_in_file (r : WindowReg) :
    (regOffset r).toNat % 4 = 0 ∧ ¬ reservedOffset (regOffset r) := by
  refine ⟨(isAligned_iff _).mp (isAligned_regOffset r), fun reserved => ?_⟩
  have slot := slotAt_of_reservedOffset reserved
  rw [slotAt_indexOf_regOffset] at slot
  cases slot

/-- CMD is the only register whose read errs. -/
theorem erringMove_read_regOffset (r : WindowReg) :
    ErringMove (.read (regOffset r)) ↔ r = .cmd := by
  obtain ⟨aligned, in_file⟩ := regOffset_in_file r
  have cmd : regOffset r = 0x7C ↔ r = .cmd := regOffset_inj (r' := .cmd)
  simp only [ErringMove, aligned, in_file, cmd, ne_eq, not_true_eq_false, false_or]

/-- ID is the only register whose write errs. -/
theorem erringMove_write_regOffset (r : WindowReg) (v : Word) :
    ErringMove (.write (regOffset r) v) ↔ r = .id := by
  obtain ⟨aligned, in_file⟩ := regOffset_in_file r
  have id : regOffset r = 0x5C ↔ r = .id := regOffset_inj (r' := .id)
  simp only [ErringMove, aligned, in_file, id, ne_eq, not_true_eq_false, false_or]

/-! ### The kinds of move -/

/-- The kinds of host move (70_reset_and_hazards.md R298), by what the block does with them. -/
inductive MoveKind : HostMove → Prop where
  | errs {m : HostMove} (h : ErringMove m) : MoveKind m
  | reads {r : WindowReg} (not_cmd : r ≠ .cmd) : MoveKind (.read (regOffset r))
  | stores {r : WindowReg} {v : Word} (not_id : r ≠ .id) (not_cmd : r ≠ .cmd) :
      MoveKind (.write (regOffset r) v)
  | runs {w : Word} {i : Instr} (legal : decode w = .ok i) : MoveKind (.write 0x7C w)
  | illegal {w : Word} {e : Illegal} (rejected : decode w = .error e) : MoveKind (.write 0x7C w)
  | resets : MoveKind .reset

/-- Every move is of one of the kinds. -/
theorem moveKind (m : HostMove) : MoveKind m := by
  cases m with
  | reset => exact .resets
  | read a =>
    rcases offset_cases a with misaligned | reserved | ⟨r, rfl⟩
    · exact .errs (Or.inl misaligned)
    · exact .errs (Or.inr (Or.inl reserved))
    · by_cases cmd : r = .cmd
      · exact .errs ((erringMove_read_regOffset r).mpr cmd)
      · exact .reads cmd
  | write a v =>
    rcases offset_cases a with misaligned | reserved | ⟨r, rfl⟩
    · exact .errs (Or.inl misaligned)
    · exact .errs (Or.inr (Or.inl reserved))
    · by_cases id : r = .id
      · exact .errs ((erringMove_write_regOffset r v).mpr id)
      by_cases cmd : r = .cmd
      · subst cmd
        cases decoded : decode v with
        | ok i => exact .runs decoded
        | error e => exact .illegal decoded
      · exact .stores id cmd

/-! ### What a move of each kind does -/

theorem hostRead_of_erringMove {a : BitVec 7} (h : ErringMove (.read a)) (s : State) :
    hostRead a s = (0, s.raiseHerr) := by
  rcases h with misaligned | reserved | rfl
  · exact hostRead_misaligned s (isAligned_eq_false misaligned)
  · exact hostRead_reserved s (slotAt_of_reservedOffset reserved)
  · exact hostRead_cmd s

theorem hostWrite_of_erringMove {a : BitVec 7} {v : Word} (h : ErringMove (.write a v))
    (s : State) : hostWrite a v s = .next s.raiseHerr := by
  rcases h with misaligned | reserved | rfl
  · exact hostWrite_misaligned v s (isAligned_eq_false misaligned)
  · exact hostWrite_reserved v s (slotAt_of_reservedOffset reserved)
  · exact hostWrite_reg v s (r := .id) (by decide)

/-- The effect of a write is the state it answers. -/
theorem moveEffect_write {a : BitVec 7} {v : Word} {s t : State} (h : hostWrite a v s = .next t) :
    moveEffect (.write a v) s = t :=
  Host.Outcome.next.inj ((hostWrite_eq_effect a v s).symm.trans h)

/-- An erring move returns 0 if it is a read, and raises HERR. -/
theorem moveEffect_errs {m : HostMove} (h : ErringMove m) (s : State) :
    moveEffect m s = { s with
      reads := s.reads ++ erringValue m, status := { s.status with herr := true } } := by
  cases m with
  | reset => exact h.elim
  | read a =>
    rw [moveEffect, hostRead_of_erringMove h]
    rfl
  | write a v =>
    rw [moveEffect_write (hostWrite_of_erringMove h s), erringValue, List.append_nil]
    rfl

theorem moveEffect_reads {r : WindowReg} (not_cmd : r ≠ .cmd) (s : State) :
    moveEffect (.read (regOffset r)) s = s.logRead (s.readReg r) := by
  rw [moveEffect, hostRead_reg s not_cmd]

theorem moveEffect_stores {r : WindowReg} (not_cmd : r ≠ .cmd) (v : Word) (s : State) :
    moveEffect (.write (regOffset r) v) s = s.writeReg r v :=
  moveEffect_write (hostWrite_reg v s not_cmd)

theorem moveEffect_runs {w : Word} {i : Instr} (legal : decode w = .ok i) (s : State) :
    moveEffect (.write 0x7C w) s = commandEffect i s :=
  moveEffect_write ((runCommand_legal s legal).trans (exec_eq_effect i s))

theorem moveEffect_illegal {w : Word} {e : Illegal} (rejected : decode w = .error e) (s : State) :
    moveEffect (.write 0x7C w) s = s.raiseIll :=
  moveEffect_write (runCommand_illegal s rejected)

/-- A step on a waiting move answers its effect at the state with the move taken off the port. -/
theorem step_eq_moveEffect {s : State} {m : HostMove} {rest : List HostMove}
    (h : s.port = m :: rest) : step s = .next (moveEffect m { s with port := rest }) :=
  (step_cons h).trans (accept_eq_effect m _)

end Sys2Proof.Machine
end

section
/-! PROOFS. The error flags: which moves raise them, one at a time, that they stay set, and that
they steer nothing (spec/60_exceptions.md R261 to R265). -/

namespace Sys2Proof.Machine

open Sys2Proof.Claims

/-! ### STATUS after a register write -/

theorem writeReg_status_of_ne {r : WindowReg} (not_id : r ≠ .id) (not_status : r ≠ .status)
    (v : Word) (s : State) : (s.writeReg r v).status = s.status := by
  cases r with
  | data r => exact set_status s r v
  | id => exact absurd rfl not_id
  | status => exact absurd rfl not_status
  | ebit | filt | cmd => rfl

/-! ### Which errors a move raises (R262, R265) -/

/-- A move that does not err does not set HERR. -/
theorem moveEffect_herr_of_not_erring {m : HostMove} (h : ¬ ErringMove m) {s : State}
    (clear : s.status.herr = false) : (moveEffect m s).status.herr = false := by
  cases moveKind m with
  | errs erring => exact absurd erring h
  | reads not_cmd => rwa [moveEffect_reads not_cmd, logRead_status]
  | @stores r v not_id not_cmd =>
    rw [moveEffect_stores not_cmd]
    by_cases status : r = .status
    · simp [status, State.writeReg, clear]
    · rwa [writeReg_status_of_ne not_id status]
  | runs legal => rwa [moveEffect_runs legal, commandEffect_status]
  | illegal rejected => rwa [moveEffect_illegal rejected, raiseIll_status, withIll_herr]
  | resets => rfl

/-- From clear flags an erring move leaves ILL clear, and every other move HERR. -/
theorem moveEffect_ill_false_or_herr_false (m : HostMove) {s : State}
    (clear : s.status = { ill := false, herr := false }) :
    (moveEffect m s).status.ill = false ∨ (moveEffect m s).status.herr = false := by
  by_cases erring : ErringMove m
  · left
    rw [moveEffect_errs erring, clear]
  · right
    exact moveEffect_herr_of_not_erring erring (by rw [clear])

/-- Settles O45: an erring move's effect is HERR and, of a read, the value 0; a move of every other
kind leaves a clear HERR clear. -/
theorem herrExactly : Obligations.HerrExactly := by
  intro s m rest hport
  rw [step_eq_moveEffect hport]
  constructor
  · intro erring
    rw [moveEffect_errs erring]
  · rintro not_erring clear _ ⟨⟩
    exact moveEffect_herr_of_not_erring not_erring clear

/-- Settles O46: an erring move leaves ILL alone and every other move HERR; a misaligned write raises
HERR before its word is decoded. -/
theorem oneErrorAtMostInOrder : Obligations.OneErrorAtMostInOrder := by
  refine ⟨?at_most_one, ?misaligned, ?erring, stepRunsTheDecodedCommand.2, ?commands⟩
  case at_most_one =>
    rintro s t clear run ⟨ill, herr⟩
    rcases step_cases run with ⟨_, rfl⟩ | ⟨m, rest, _, rfl⟩
    · simp [clear] at ill
    · rcases moveEffect_ill_false_or_herr_false (s := { s with port := rest }) m clear with h | h
      · exact absurd (ill.symm.trans h) (by decide)
      · exact absurd (herr.symm.trans h) (by decide)
  case misaligned =>
    intro s a w rest hport misaligned
    exact (step_write hport).trans (hostWrite_misaligned w _ (isAligned_eq_false misaligned))
  case erring =>
    intro s m rest hport erring
    exact ⟨_, (herrExactly s m rest hport).1 erring, rfl⟩
  case commands =>
    intro i s t run
    rw [exec_next run, commandEffect_status]

/-! ### The flags are sticky (R264) -/

/-- If raising an error and writing STATUS with the flag's bit 0 keep a flag set, every move
does, but for a reset and a write of STATUS with that bit 1. -/
theorem moveEffect_keeps_flag {flag : Status → Bool} {bit : Nat}
    (ill : ∀ st, flag st = true → flag st.withIll = true)
    (herr : ∀ st, flag st = true → flag st.withHerr = true)
    (clear : ∀ st (v : Word), flag st = true → v.getLsbD bit = false →
      flag (st.clearOnes v) = true)
    {m : HostMove} (keep : m ≠ .reset ∧ ∀ v : Word, v.getLsbD bit = true → m ≠ .write 0x58 v)
    {s : State} (set : flag s.status = true) : flag (moveEffect m s).status = true := by
  obtain ⟨no_reset, no_clear⟩ := keep
  cases moveKind m with
  | errs erring =>
    rw [moveEffect_errs erring]
    exact herr _ set
  | reads not_cmd => rwa [moveEffect_reads not_cmd, logRead_status]
  | @stores r v not_id not_cmd =>
    rw [moveEffect_stores not_cmd]
    by_cases status : r = .status
    · subst status
      exact clear _ v set (Bool.eq_false_iff.mpr fun one => no_clear v one rfl)
    · rwa [writeReg_status_of_ne not_id status]
  | runs legal => rwa [moveEffect_runs legal, commandEffect_status]
  | illegal rejected =>
    rw [moveEffect_illegal rejected, raiseIll_status]
    exact ill _ set
  | resets => exact absurd rfl no_reset

/-- What the moves of a kind keep of STATUS, a step keeps while every waiting move is of that
kind. -/
theorem step_keeps_of_moves {P : Status → Prop} {Keeps : HostMove → Prop}
    (moves : ∀ {m}, Keeps m → ∀ {s}, P s.status → P (moveEffect m s).status)
    {s t : State} (h : P s.status ∧ ∀ m ∈ s.port, Keeps m) (run : step s = .next t) :
    P t.status ∧ ∀ m ∈ t.port, Keeps m := by
  obtain ⟨before, waiting⟩ := h
  rcases step_cases run with ⟨_, rfl⟩ | ⟨m, rest, hport, rfl⟩
  · exact ⟨before, waiting⟩
  · rw [hport] at waiting
    obtain ⟨keeps_m, keeps_rest⟩ := List.forall_mem_cons.mp waiting
    rw [moveEffect_port]
    exact ⟨moves keeps_m before, keeps_rest⟩

/-- Settles O47: raising one error keeps the other's flag, and a write of STATUS keeps the flags
whose bits are 0. -/
theorem errorFlagsAreSticky : Obligations.ErrorFlagsAreSticky := by
  constructor
  · exact fun s t => step_keeps_of_moves (P := fun st => st.ill = true)
      (moveEffect_keeps_flag (flag := Status.ill) (fun _ _ => rfl) (fun _ set => set)
        (fun st v set zero => by rw [clearOnes_ill, set, zero]; rfl))
  · exact fun s t => step_keeps_of_moves (P := fun st => st.herr = true)
      (moveEffect_keeps_flag (flag := Status.herr) (fun _ set => set) (fun _ _ => rfl)
        (fun st v set zero => by rw [clearOnes_herr, set, zero]; rfl))

/-! ### The flags steer nothing (R264) -/

theorem readReg_setStatus {r : WindowReg} (h : r ≠ .status) (s : State) (st : Status) :
    (s.setStatus st).readReg r = s.readReg r := by
  cases r with
  | data r => exact get_setStatus s r st
  | status => exact absurd rfl h
  | ebit | filt | id | cmd => rfl

theorem writeReg_setStatus (r : WindowReg) (v : Word) (s : State) (st : Status) :
    ∃ st', (s.setStatus st).writeReg r v = (s.writeReg r v).setStatus st' := by
  cases r with
  | data r => exact ⟨st, by cases r <;> rfl⟩
  | ebit | filt | cmd => exact ⟨st, rfl⟩
  | status => exact ⟨st.clearOnes v, rfl⟩
  | id => exact ⟨st.withHerr, rfl⟩

theorem commandEffect_setStatus (i : Instr) (s : State) (st : Status) :
    commandEffect i (s.setStatus st) = (commandEffect i s).setStatus st := by
  cases i with
  | kset stage => cases stage <;> rfl
  | _ => rfl

/-- A move does to a state with other flags what it does to the state, but for a read of STATUS. -/
theorem moveEffect_setStatus {m : HostMove} (h : m ≠ .read 0x58) (s : State) (st : Status) :
    ∃ st', moveEffect m (s.setStatus st) = (moveEffect m s).setStatus st' := by
  cases moveKind m with
  | errs erring =>
    rw [moveEffect_errs erring, moveEffect_errs erring]
    exact ⟨st.withHerr, rfl⟩
  | @reads r not_cmd =>
    have not_status : r ≠ .status := by
      rintro rfl
      exact h rfl
    rw [moveEffect_reads not_cmd, moveEffect_reads not_cmd, readReg_setStatus not_status]
    exact ⟨st, rfl⟩
  | stores not_id not_cmd =>
    rw [moveEffect_stores not_cmd, moveEffect_stores not_cmd]
    exact writeReg_setStatus _ _ s st
  | runs legal =>
    rw [moveEffect_runs legal, moveEffect_runs legal]
    exact ⟨st, commandEffect_setStatus _ s st⟩
  | illegal rejected =>
    rw [moveEffect_illegal rejected, moveEffect_illegal rejected]
    exact ⟨st.withIll, rfl⟩
  | resets => exact ⟨State.reset.status, rfl⟩

/-- Settles O48: the step accepts the same move from either state, and only a read of STATUS looks
at the flags. -/
theorem errorFlagsDoNotSteer : Obligations.ErrorFlagsDoNotSteer := by
  intro s t st no_read run
  rcases step_cases run with ⟨hport, rfl⟩ | ⟨m, rest, hport, rfl⟩
  · exact ⟨st, by rw [step_eq_effect, stepEffect, hport]⟩
  · have other : m ≠ .read 0x58 := by
      rintro rfl
      exact no_read (by rw [hport]; rfl)
    obtain ⟨st', moved⟩ := moveEffect_setStatus other { s with port := rest } st
    have waiting : ({ s with status := st } : State).port = m :: rest := hport
    exact ⟨st', (step_eq_moveEffect waiting).trans (congrArg _ moved)⟩

end Sys2Proof.Machine
end

section
/-! PROOFS. Which registers a command writes: the column "written by commands" of spec/10_state.md
R30, with R31 and R35. -/

namespace Sys2Proof.Machine

open Sys2Proof.Claims

/-! ### Commands as register writes -/

theorem setYs_eq_sets (s : State) (y : RoundOutputs) :
    s.setYs y = (((s.set .y0 y.y0).set .y1 y.y1).set .y2 y.y2).set .y3 y.y3 := rfl

theorem decryptStep_eq_sets (s : State) :
    s.decryptStep = ((s.set .dl s.decrypted.left).set .dr s.decrypted.right).setFilt
      (s.filt.recordMatch s.decryptMatches) := rfl

theorem buildi_eq_sets (n : BitVec 12) (s : State) :
    commandEffect (.buildi n) s = (s.set .cand (buildInner n)).set .ink (buildInner n) := rfl

theorem kderive_eq_sets (s : State) :
    commandEffect .kderive s = ((s.setYs s.roundOutputs).set .k4
      (k4Of s.pl s.pr s.cl s.roundOutputs)).set .k5 (k5Of s.pr s.cr s.roundOutputs) := rfl

theorem writtenBy_kset (stage : Stage) : writtenBy (.kset stage) = [.data (subkeyReg stage)] := by
  cases stage <;> rfl

/-! ### Registers a command does not write -/

theorem commandEffect_get {i : Instr} {r : DataReg} (h : .data r ∉ writtenBy i) (s : State) :
    (commandEffect i s).get r = s.get r := by
  cases i with
  | nop => rfl
  | eval stage v => exact get_setEbit s r _
  | evalA stage v => exact (get_setFilt _ r _).trans (get_setEbit s r _)
  | fclr => exact get_setFilt s r _
  | xform => exact get_set_ne s .t r _ (by simpa [writtenBy] using h)
  | buildo n => exact get_set_ne s .cand r _ (by simpa [writtenBy] using h)
  | kset stage => exact get_set_ne s _ r _ (by simpa [writtenBy_kset] using h)
  | buildi n =>
    obtain ⟨cand, ink⟩ : r ≠ .cand ∧ r ≠ .ink := by simpa [writtenBy] using h
    rw [buildi_eq_sets, get_set_ne _ .ink r _ ink, get_set_ne _ .cand r _ cand]
  | decrypt | decryptA =>
    obtain ⟨dl, dr⟩ : r ≠ .dl ∧ r ≠ .dr := by simpa [writtenBy] using h
    simp [commandEffect, decryptStep_eq_sets, get_set_ne, dl, dr]
  | ygen =>
    obtain ⟨y0, y1, y2, y3⟩ : r ≠ .y0 ∧ r ≠ .y1 ∧ r ≠ .y2 ∧ r ≠ .y3 := by simpa [writtenBy] using h
    simp [commandEffect, setYs_eq_sets, get_set_ne, y0, y1, y2, y3]
  | kderive =>
    obtain ⟨y0, y1, y2, y3, k4, k5⟩ :
        r ≠ .y0 ∧ r ≠ .y1 ∧ r ≠ .y2 ∧ r ≠ .y3 ∧ r ≠ .k4 ∧ r ≠ .k5 := by simpa [writtenBy] using h
    simp [kderive_eq_sets, setYs_eq_sets, get_set_ne, y0, y1, y2, y3, k4, k5]

theorem commandEffect_ebit {i : Instr} (h : .ebit ∉ writtenBy i) (s : State) :
    (commandEffect i s).ebit = s.ebit := by
  cases i with
  | eval stage v | evalA stage v => simp [writtenBy] at h
  | _ => simp [commandEffect]

theorem commandFilt_of_not_written {i : Instr} (h : .filt ∉ writtenBy i) (s : State) :
    commandFilt i s = s.filt := by
  cases i with
  | decrypt | decryptA | evalA stage v | fclr => simp [writtenBy] at h
  | _ => rfl

/-- A register that the column does not name for a command reads the same after it. -/
theorem commandEffect_readReg {i : Instr} {r : WindowReg} (h : r ∉ writtenBy i) (s : State) :
    (commandEffect i s).readReg r = s.readReg r := by
  cases r with
  | data r => exact commandEffect_get h s
  | ebit => rw [State.readReg, State.readReg, commandEffect_ebit h]
  | filt => rw [State.readReg, State.readReg, commandEffect_filt, commandFilt_of_not_written h]
  | status => rw [State.readReg, State.readReg, commandEffect_status]
  | id | cmd => rfl

/-- Settles O20: command by command, the fields its effect does not name. -/
theorem commandsWriteOnlyTheirRegisters : Obligations.CommandsWriteOnlyTheirRegisters := by
  intro i s
  refine ⟨commandEffect i s, exec_eq_effect i s, ?_⟩
  cases i with
  | kset stage => cases stage <;> simp [commandEffect, subkeyReg, State.set]
  | _ => simp [commandEffect]

end Sys2Proof.Machine
end

section
/-! PROOFS. What every step and every run keeps: EBIT's upper bits, APPROX, the records of FILT;
that every run completes; and the reset event (spec/10_state.md R38, R54, R56, spec/45_filter.md R214,
R216, spec/70_reset_and_hazards.md R290, R296, R297). -/

namespace Sys2Proof.Machine

open Sys2Proof.Claims

/-! ### EBIT (R38) -/

/-- EBIT is always written as one bit, zero-extended (log entry 6). -/
theorem zext_bit_lt_two (b : BitVec 1) : (b.setWidth 32).toNat < 2 := by
  revert b
  decide

theorem commandEffect_ebit_lt_two {i : Instr} {s : State} (h : s.ebit.toNat < 2) :
    (commandEffect i s).ebit.toNat < 2 := by
  cases i with
  | eval stage v =>
    rw [commandEffect, setEbit_ebit]
    exact zext_bit_lt_two _
  | evalA stage v =>
    rw [commandEffect, setFilt_ebit, setEbit_ebit]
    exact zext_bit_lt_two _
  | kset stage => rwa [commandEffect, set_ebit]
  | _ => rwa [commandEffect_ebit (by simp [writtenBy])]

theorem writeReg_ebit_lt_two {r : WindowReg} {v : Word} {s : State} (h : s.ebit.toNat < 2) :
    (s.writeReg r v).ebit.toNat < 2 := by
  cases r with
  | data r => rwa [State.writeReg, set_ebit]
  | ebit => exact zext_bit_lt_two _
  | _ => exact h

theorem moveEffect_ebit_lt_two (m : HostMove) {s : State} (h : s.ebit.toNat < 2) :
    (moveEffect m s).ebit.toNat < 2 := by
  cases moveKind m with
  | errs erring => rwa [moveEffect_errs erring]
  | reads not_cmd => rwa [moveEffect_reads not_cmd, logRead_ebit]
  | stores _ not_cmd =>
    rw [moveEffect_stores not_cmd]
    exact writeReg_ebit_lt_two h
  | runs legal =>
    rw [moveEffect_runs legal]
    exact commandEffect_ebit_lt_two h
  | illegal rejected => rwa [moveEffect_illegal rejected, raiseIll_ebit]
  | resets => exact Nat.two_pos

/-- Settles O54: every command and every write that stores into EBIT stores one bit. -/
theorem ebitReservedBitsStayZero : Obligations.EbitReservedBitsStayZero := by
  intro s t below_two run
  rcases step_cases run with ⟨_, rfl⟩ | ⟨m, rest, _, rfl⟩
  · exact below_two
  · exact moveEffect_ebit_lt_two m below_two

/-- Settles O55: EBIT is 0 after reset. -/
theorem ebitReservedBitsZeroAtReset : Obligations.EbitReservedBitsZeroAtReset := Nat.two_pos

/-! ### APPROX (R54) -/

theorem writeReg_approx (r : WindowReg) (v : Word) (s : State) :
    (s.writeReg r v).approx = s.approx := by
  cases r with
  | data r => exact set_approx s r v
  | _ => rfl

theorem moveEffect_approx (m : HostMove) (s : State) : (moveEffect m s).approx = s.approx := by
  cases moveKind m with
  | errs erring => rw [moveEffect_errs erring]
  | reads not_cmd => rw [moveEffect_reads not_cmd, logRead_approx]
  | stores _ not_cmd => rw [moveEffect_stores not_cmd, writeReg_approx]
  | runs legal => rw [moveEffect_runs legal, commandEffect_approx]
  | illegal rejected => rw [moveEffect_illegal rejected, raiseIll_approx]
  | resets => rfl

theorem movesEffect_approx (moves : List HostMove) (s : State) :
    (movesEffect moves s).approx = s.approx := by
  induction moves generalizing s with
  | nil => rfl
  | cons m rest ih => rw [movesEffect_cons, ih, moveEffect_approx]

/-- Settles O56: no move touches APPROX, so no step and no list of moves does. -/
theorem approxNeverChanges : Obligations.ApproxNeverChanges := by
  constructor
  · intro s t run
    rcases step_cases run with ⟨_, rfl⟩ | ⟨m, rest, _, rfl⟩
    · rfl
    · exact moveEffect_approx m _
  · intro moves s t run
    rw [runMoves_eq_effect] at run
    cases run
    exact movesEffect_approx moves s

/-! ### Runs and the idle step (R291, R297) -/

/-- Settles O57: a run answers the effect of its moves and leaves none at the port. -/
theorem everyRunCompletes : Obligations.EveryRunCompletes :=
  fun moves s => ⟨_, runMoves_eq_effect moves s, rfl⟩

/-- Settles O58: a step with no move waiting has no effect. -/
theorem idlePortWaits : Obligations.IdlePortWaits := by
  intro s idle
  rw [step_eq_effect, stepEffect, idle]

/-! ### The records of FILT (R214, R216) -/

/-- A record that every move that may not rearm FILT keeps, with the move's items added at its end,
every step keeps with the items of the move it accepts. -/
theorem step_records {item : HostMove → State → List Bool} {Records : Filt → List Bool → Prop}
    (keeps : ∀ {m s bits}, ¬ MayRearm m → Records s.filt bits →
      Records (moveEffect m s).filt (bits ++ item m s))
    (item_port : ∀ m s rest, item m { s with port := rest } = item m s) {s t : State}
    {bits : List Bool} (h : Records s.filt bits) (quiet : ∀ m ∈ s.port.head?, ¬ MayRearm m)
    (run : step s = .next t) :
    Records t.filt (bits ++ (s.port.take 1).flatMap fun m => item m s) := by
  rcases step_cases run with ⟨hport, rfl⟩ | ⟨m, rest, hport, rfl⟩
  · rwa [hport, List.take_nil, List.flatMap_nil, List.append_nil]
  · have quiet_m : ¬ MayRearm m := quiet m (by rw [hport]; rfl)
    have next_items : ((s.port.take 1).flatMap fun m => item m s) =
        item m { s with port := rest } := by
      rw [hport, item_port]
      exact List.append_nil _
    rw [next_items]
    exact keeps quiet_m h

/-- Settles O59: an EVAL.A adds its bit to the record, and every other move that may not rearm FILT
leaves SEEN, REF and OK alone. -/
theorem filterRecordKeptByEveryStep : Obligations.FilterRecordKeptByEveryStep := by
  refine ⟨filterRecords_cleared, ?fclr, fun s t bits => step_records moveEffect_filterRecords ?port⟩
  case fclr =>
    intro s t run
    rw [exec_next run]
    exact filterRecords_cleared
  case port => exact fun _ _ _ => rfl

/-- Settles O60: a DECRYPT.A adds its compare to the record, and every other move that may not rearm
FILT leaves VOK alone. -/
theorem validationRecordKeptByEveryStep : Obligations.ValidationRecordKeptByEveryStep := by
  refine ⟨validationRecords_cleared, ?fclr,
    fun s t compares => step_records moveEffect_validationRecords ?port⟩
  case fclr =>
    intro s t run
    rw [exec_next run]
    exact validationRecords_cleared
  case port => exact fun _ _ _ => rfl

/-! ### The reset event (R290, R296) -/

/-- CLRERR's word clears both flags. -/
theorem clearOnes_three (st : Status) :
    st.clearOnes 0x00000003 = { ill := false, herr := false } := by
  rw [clearOnes_eq_ite]
  rfl

/-- Settles O53: the reset event's fields, and the host's way to each of them, register by
register. -/
theorem resetEvent : Obligations.ResetEvent := by
  refine ⟨?event, ?data, ?ebit, exec_eq_effect .fclr, ?status⟩
  case event =>
    intro s rest hport
    exact ⟨_, step_eq_moveEffect hport, get_platformReset _, platformReset_ebit _, toWord_cleared,
      platformReset_status _, platformReset_approx _⟩
  case data =>
    intro s r
    rw [hostWrite_reg 0 s (by simp), State.writeReg, get_reset]
  case ebit => exact fun s => hostWrite_reg 0 s (r := .ebit) (by decide)
  case status =>
    intro s
    have stored : hostWrite 0x58 0x00000003 s = .next (s.writeReg .status 0x00000003) :=
      hostWrite_reg 0x00000003 s (r := .status) (by decide)
    rw [stored, State.writeReg, clearOnes_three]
    rfl

end Sys2Proof.Machine
end

section
/-! PROOFS. Reads after writes, accesses one after another, and what the host instructions do
(spec/20_memory.md R75, spec/70_reset_and_hazards.md R294, spec/30_encoding.md R103). -/

namespace Sys2Proof.Machine

open Sys2Proof.Claims

/-! ### Runs one after another (R294) -/

theorem runMoves_append (earlier later : List HostMove) (s : State) :
    runMoves (earlier ++ later) s = runMoves later { movesEffect earlier s with port := [] } := by
  rw [runMoves_eq_effect, runMoves_eq_effect, movesEffect_append,
    movesEffect_withPort later (movesEffect earlier s) []]

/-- The last move of a run is accepted at the state the moves before it lead to. -/
theorem runMoves_concat (moves : List HostMove) (m : HostMove) (s : State) :
    runMoves (moves ++ [m]) s = accept m { movesEffect moves s with port := [] } := by
  rw [runMoves_append, runMoves_cons, runMoves_nil, accept_eq_effect, moveEffect_withPort]

theorem runMoves_singleton (m : HostMove) (s : State) :
    runMoves [m] s = accept m { s with port := [] } :=
  runMoves_concat [] m s

/-! ### What a read returns (R64) -/

theorem hostRead_regOffset_value (r : WindowReg) (s : State) :
    (hostRead (regOffset r) s).1 = s.readReg r := by
  by_cases cmd : r = .cmd
  · rw [cmd, hostRead_cmd]
    rfl
  · rw [hostRead_reg s cmd]

theorem readReg_withPort (r : WindowReg) (s : State) (waiting : List HostMove) :
    ({ s with port := waiting } : State).readReg r = s.readReg r := by
  cases r with
  | data r => cases r <;> rfl
  | _ => rfl

theorem readReg_withReads (r : WindowReg) (s : State) (values : List Word) :
    ({ s with reads := values } : State).readReg r = s.readReg r := by
  cases r with
  | data r => cases r <;> rfl
  | _ => rfl

theorem hostRead_reads (a : BitVec 7) (s : State) : (hostRead a s).2.reads = s.reads := by
  rcases hostRead_cases a s with read | read <;> rw [read]
  exact raiseHerr_reads s

/-- A run that ends with a read of a register adds what the register then reads as. -/
theorem reads_after_last_read (moves : List HostMove) (r : WindowReg) (s : State) :
    ∃ t, runMoves (moves ++ [.read (regOffset r)]) s = .next t ∧
      t.reads = (movesEffect moves s).reads ++ [(movesEffect moves s).readReg r] := by
  refine ⟨_, runMoves_concat moves _ s, ?_⟩
  rw [logRead_reads, hostRead_reads, hostRead_regOffset_value, readReg_withPort]

/-! ### What a write of a register leaves (R65) -/

theorem writeReg_readReg_of_ne {r r' : WindowReg} (h : r' ≠ r) (not_id : r ≠ .id) (v : Word)
    (s : State) : (s.writeReg r v).readReg r' = s.readReg r' := by
  cases r with
  | id => exact absurd rfl not_id
  | cmd => rfl
  | status => exact readReg_setStatus h s _
  | data r =>
    cases r' with
    | data r' => exact get_set_ne s r r' v (by simpa using h)
    | ebit | filt | status => simp [State.writeReg, State.readReg]
    | id | cmd => rfl
  | ebit =>
    cases r' with
    | data r' => cases r' <;> rfl
    | ebit => exact absurd rfl h
    | _ => rfl
  | filt =>
    cases r' with
    | data r' => exact get_setFilt s r' _
    | filt => exact absurd rfl h
    | _ => rfl

/-- EBIT written and read back: the value's bit 0. -/
theorem ebit_read_back (v : Word) :
    (((v.extractLsb' 0 1).setWidth 32).extractLsb' 0 1).setWidth 32 = v &&& 0x00000001 := by
  have bit : (v.extractLsb' 0 1).setWidth 32 = v &&& 0x00000001 := by
    rw [extractLsb'_bit0_setWidth, ← ofBool_setWidth]
    exact (BitVec.and_one_eq_setWidth_ofBool_getLsbD).symm
  have low : ((v.extractLsb' 0 1).setWidth 32).extractLsb' 0 1 = v.extractLsb' 0 1 := by
    generalize v.extractLsb' 0 1 = b
    revert b
    decide
  rw [low, bit]

theorem getLsbD_status_toWord (st : Status) {i : Nat} (hi : i < 32) :
    st.toWord.getLsbD i = ((decide (i = 0) && st.ill) || (decide (i = 1) && st.herr)) := by
  have all : ∀ ill herr : Bool, ∀ i < 32, (Status.toWord { ill, herr }).getLsbD i =
      ((decide (i = 0) && ill) || (decide (i = 1) && herr)) := by decide
  exact all st.ill st.herr i hi

/-- Write-1-to-clear, read back: the flags whose bits were not written 1. -/
theorem toWord_clearOnes (st : Status) (v : Word) :
    (st.clearOnes v).toWord = st.toWord &&& ~~~v := by
  apply BitVec.eq_of_getLsbD_eq
  intro i hi
  rw [BitVec.getLsbD_and, BitVec.getLsbD_not, getLsbD_status_toWord _ hi,
    getLsbD_status_toWord _ hi, clearOnes_ill, clearOnes_herr]
  by_cases i0 : i = 0
  · simp [i0]
  by_cases i1 : i = 1
  · simp [i1]
  · simp [i0, i1]

theorem readReg_after_write (r : WindowReg) (v : Word) (s : State) :
    (moveEffect (.write (regOffset r) v) s).readReg r = leftByWrite s v r := by
  cases r with
  | id | cmd => rfl
  | data r =>
    rw [moveEffect_stores (by simp)]
    exact get_set_same s r v
  | ebit =>
    rw [moveEffect_stores (by decide)]
    exact ebit_read_back v
  | filt =>
    rw [moveEffect_stores (by decide)]
    exact toWord_ofWord v
  | status =>
    rw [moveEffect_stores (by decide)]
    exact toWord_clearOnes s.status v

theorem readReg_after_reset (r : WindowReg) (s : State) :
    (moveEffect .reset s).readReg r = State.reset.readReg r := by
  cases r with
  | data r => exact (get_platformReset s r).trans (get_reset r).symm
  | _ => rfl

/-! ### Moves that may not write a register -/

/-- A move that may not write a register leaves its read alone. -/
theorem moveEffect_readReg {m : HostMove} {r : WindowReg} (h : ¬ MayWrite m r) (s : State) :
    (moveEffect m s).readReg r = s.readReg r := by
  by_cases id : r = .id
  · rw [id]
    rfl
  by_cases cmd : r = .cmd
  · rw [cmd]
    rfl
  have no_write := fun writes => h ⟨id, cmd, writes⟩
  cases moveKind m with
  | errs erring =>
    have not_status : r ≠ .status := fun status =>
      no_write (Or.inr (Or.inr (Or.inr ⟨status, Or.inl erring⟩)))
    rw [moveEffect_errs erring]
    exact (readReg_setStatus not_status { s with reads := s.reads ++ erringValue m } _).trans
      (readReg_withReads r s _)
  | reads not_cmd =>
    rw [moveEffect_reads not_cmd]
    exact readReg_withReads r s _
  | @stores r' v not_id not_cmd =>
    have other : r ≠ r' := by
      rintro rfl
      exact no_write (Or.inr (Or.inl ⟨v, rfl⟩))
    rw [moveEffect_stores not_cmd, writeReg_readReg_of_ne other not_id]
  | @runs w i legal =>
    have not_written : r ∉ writtenBy i := fun mem =>
      no_write (Or.inr (Or.inr (Or.inl ⟨w, i, rfl, legal, mem⟩)))
    rw [moveEffect_runs legal, commandEffect_readReg not_written]
  | @illegal w e rejected =>
    have not_status : r ≠ .status := fun status =>
      no_write (Or.inr (Or.inr (Or.inr ⟨status, Or.inr ⟨w, e, rfl, rejected⟩⟩)))
    rw [moveEffect_illegal rejected]
    exact readReg_setStatus not_status s _
  | resets => exact absurd (Or.inl rfl) no_write

theorem movesEffect_readReg {moves : List HostMove} {r : WindowReg}
    (quiet : ∀ m ∈ moves, ¬ MayWrite m r) (s : State) :
    (movesEffect moves s).readReg r = s.readReg r := by
  induction moves generalizing s with
  | nil => rfl
  | cons m rest ih =>
    obtain ⟨quiet_m, quiet_rest⟩ := List.forall_mem_cons.mp quiet
    rw [movesEffect_cons, ih quiet_rest, moveEffect_readReg quiet_m]

/-- After a move and others that may not write the register, a read returns what the move left. -/
theorem last_read_after_move {moves : List HostMove} {r : WindowReg}
    (quiet : ∀ m ∈ moves, ¬ MayWrite m r) (m : HostMove) (s : State) :
    ∃ t, runMoves (m :: moves ++ [.read (regOffset r)]) s = .next t ∧
      t.reads.getLast? = some ((moveEffect m s).readReg r) := by
  obtain ⟨t, run, reads⟩ := reads_after_last_read (m :: moves) r s
  refine ⟨t, run, ?_⟩
  rw [reads, List.getLast?_concat, movesEffect_cons, movesEffect_readReg quiet]

theorem moveEffect_encode (i : Instr) (s : State) :
    moveEffect (.write 0x7C (encode i)) s = commandEffect i s :=
  moveEffect_runs (decode_encode i) s

/-! ### Writes of a data register -/

/-- A write of a data register leaves the read of every other offset alone. -/
theorem hostRead_set_of_ne {a : BitVec 7} {r : DataReg} (h : a ≠ regOffset (.data r)) (v : Word)
    (s : State) : (hostRead a (s.set r v)).1 = (hostRead a s).1 := by
  rcases offset_cases a with misaligned | reserved | ⟨r', rfl⟩
  · rw [hostRead_misaligned _ (isAligned_eq_false misaligned),
      hostRead_misaligned _ (isAligned_eq_false misaligned)]
  · rw [hostRead_reserved _ (slotAt_of_reservedOffset reserved),
      hostRead_reserved _ (slotAt_of_reservedOffset reserved)]
  · have other : r' ≠ .data r := fun same => h (congrArg regOffset same)
    rw [hostRead_regOffset_value, hostRead_regOffset_value]
    exact writeReg_readReg_of_ne other (by simp) v s

/-- Settles O50: runs compose; a move that may not write a register leaves its read alone, so the
last move that may write it fixes what a read returns and what a command finds there. -/
theorem accessesSeeEarlierWrites : Obligations.AccessesSeeEarlierWrites := by
  refine ⟨fun earlier later s => ⟨_, runMoves_eq_effect earlier s, runMoves_append earlier later s⟩,
    fun r moves quiet s => ⟨?kept, ?move, ?write, ?command, ?reset, ?then_command⟩,
    ?read_back, ?other_offsets, ?xform⟩
  case kept =>
    refine ⟨_, runMoves_eq_effect moves s, ?_⟩
    rw [hostRead_regOffset_value, hostRead_regOffset_value, readReg_withPort,
      movesEffect_readReg quiet]
  case move =>
    intro m
    obtain ⟨t, run, last⟩ := last_read_after_move quiet m s
    exact ⟨_, t, accept_eq_effect m s, run, by rw [last, hostRead_regOffset_value]⟩
  case write =>
    intro v
    obtain ⟨t, run, last⟩ := last_read_after_move quiet (.write (regOffset r) v) s
    exact ⟨t, run, by rw [last, readReg_after_write]⟩
  case command =>
    intro i
    obtain ⟨t, run, last⟩ := last_read_after_move quiet (.write 0x7C (encode i)) s
    exact ⟨_, t, exec_eq_effect i s, run,
      by rw [last, moveEffect_encode, hostRead_regOffset_value]⟩
  case reset =>
    obtain ⟨t, run, last⟩ := last_read_after_move quiet .reset s
    exact ⟨t, run, by rw [last, readReg_after_reset, hostRead_regOffset_value]⟩
  case then_command =>
    intro v i
    refine ⟨_, runMoves_eq_effect _ s, fun _ => ?stored,
      (runMoves_concat _ _ s).trans ((runsAs_encode i).2 _)⟩
    case stored =>
      rw [readReg_withPort, movesEffect_cons, movesEffect_readReg quiet, readReg_after_write]
  case read_back =>
    intro r v s
    obtain ⟨t, run, reads⟩ :=
      reads_after_last_read [.write (regOffset (.data r)) v] (.data r) s
    have written : movesEffect [.write (regOffset (.data r)) v] s = s.set r v :=
      moveEffect_stores (r := .data r) (by simp) v s
    refine ⟨t, run, ?_⟩
    rw [reads, written, set_reads, State.readReg, get_set_same]
  case other_offsets =>
    intro r v s a other
    exact ⟨s.set r v, hostWrite_reg v s (by simp), hostRead_set_of_ne other v s, set_approx s r v,
      set_reads s r v⟩
  case xform =>
    intro v s
    obtain ⟨t, run, reads⟩ :=
      reads_after_last_read [.write 0x30 v, .write 0x7C 0x10000000] (.data .t) s
    have transformed : movesEffect [.write 0x30 v, .write 0x7C 0x10000000] s =
        commandEffect .xform (s.set .x v) := by
      rw [movesEffect_cons]
      exact moveEffect_encode .xform (s.set .x v)
    refine ⟨t, run, ?_⟩
    rw [reads, transformed]
    rfl

/-! ### Host instructions (R103) -/

/-- The byte offset of a register is four times its index (10_state.md R30). -/
theorem regOffset_eq_four_mul (r : WindowReg) :
    regOffset r = BitVec.ofNat 7 (4 * (regIndex r).toNat) := by
  cases r with
  | data r => cases r <;> rfl
  | _ => rfl

/-- Settles O51: CMD and the mnemonics are one write to CMD, the loads are one write for each
register, and CLRERR's word has both flags' bits. -/
theorem hostInstructionsRun : Obligations.HostInstructionsRun := by
  refine ⟨fun i s => ?command, fun w s => runMoves_singleton _ s, fun p s => ?ldpair,
    fun k s => ?ldkeys, fun s => ?clrerr, fun r v => ?offsets⟩
  case command => exact (runMoves_singleton _ s).trans ((runsAs_encode i).2 _)
  case ldpair =>
    rw [runMoves_eq_effect, movesEffect_ldpair]
    rfl
  case ldkeys =>
    rw [runMoves_eq_effect]
    rfl
  case clrerr =>
    have cleared : moveEffect (wrMove .status 0x00000003) { s with port := [] } =
        ({ s with port := [] } : State).setStatus { ill := false, herr := false } := by
      rw [wrMove, moveEffect_stores (by decide), State.writeReg, clearOnes_three]
    rw [expand, runMoves_singleton, accept_eq_effect, cleared]
    rfl
  case offsets =>
    rw [← regOffset_eq_four_mul]
    exact ⟨rfl, rfl⟩

end Sys2Proof.Machine
end

section
/-! PROOFS. The document's bit positions as masked parities, and that a stage of a conforming table
reads no subkey that is not fixed yet (spec/00_scope.md R7, spec/43_evaluate.md R160, R164). -/

namespace Sys2Proof.Machine

open Sys2Proof.Claims

/-- Settles O1: each mask of distinct positions flips one bit into the mask of the others, so its
parity is the XOR of the bits there. -/
theorem positionsAreMaskedParity : Obligations.PositionsAreMaskedParity := by
  refine ⟨fun _ _ _ => rfl, fun ps v nodup in_word => ⟨?parity, fun i hi => ?mask⟩⟩
  case parity => rw [BitVec.and_comm, par_posMask_and in_word nodup]
  case mask => exact getLsbD_posMask hi in_word

/-- An operand that enters through a mask and a select bit of 0 does not enter. -/
theorem masked_operand_congr {mask a b : Word} {select : Bool}
    (h : (mask = 0 ∧ select = false) ∨ a = b) :
    par (mask &&& a) = par (mask &&& b) ∧ selectWord select a = selectWord select b := by
  rcases h with ⟨rfl, rfl⟩ | rfl
  · exact ⟨by rw [par_zero_and, par_zero_and], rfl⟩
  · exact ⟨rfl, rfl⟩

/-- The evaluator bit of an entry is fixed by the pair, the candidate and those of Y0, Y1, Y2 that
the entry uses. -/
theorem evalBit_congr_outputs {e : ApproxEntry} {p : Pair} {a0 a1 a2 b0 b1 b2 : Word}
    (h0 : (e.mY0 = 0 ∧ e.tin.getLsbD 2 = false) ∨
      (evalOutputs p a0 a1 a2).y0 = (evalOutputs p b0 b1 b2).y0)
    (h1 : (e.mY1 = 0 ∧ e.tin.getLsbD 3 = false) ∨
      (evalOutputs p a0 a1 a2).y1 = (evalOutputs p b0 b1 b2).y1)
    (h2 : (e.mY2 = 0 ∧ e.tin.getLsbD 4 = false) ∨
      (evalOutputs p a0 a1 a2).y2 = (evalOutputs p b0 b1 b2).y2) (cand : Word) :
    evalBit e p a0 a1 a2 cand = evalBit e p b0 b1 b2 cand := by
  obtain ⟨parity0, input0⟩ := masked_operand_congr h0
  obtain ⟨parity1, input1⟩ := masked_operand_congr h1
  obtain ⟨parity2, input2⟩ := masked_operand_congr h2
  rw [evalBit, evalBit, directParity, directParity, transformParity, transformParity,
    transformInput, transformInput, parity0, parity1, parity2, input0, input1, input2]

/-- Settles O24: an entry of stage s uses Y_j for no j from s on, and the Y_j below it are computed
from the fixed subkeys. -/
theorem conformingStageIgnoresUnfixedKeys : Obligations.ConformingStageIgnoresUnfixedKeys := by
  intro table conforms stage v p k a0 a1 a2 b0 b1 b2 cand fixed_a fixed_b
  obtain ⟨a0_fixed, a1_fixed, a2_fixed⟩ := fixed_a
  obtain ⟨b0_fixed, b1_fixed, b2_fixed⟩ := fixed_b
  have k0_agree (h : 0 < stageNumber stage) : a0 = b0 := (a0_fixed h).trans (b0_fixed h).symm
  have k1_agree (h : 1 < stageNumber stage) : a1 = b1 := (a1_fixed h).trans (b1_fixed h).symm
  have k2_agree (h : 2 < stageNumber stage) : a2 = b2 := (a2_fixed h).trans (b2_fixed h).symm
  obtain ⟨unused0, unused1, unused2, _⟩ := (conformanceOfTables.2 table).mp conforms stage v
  apply evalBit_congr_outputs
  · refine (Nat.lt_or_ge 0 (stageNumber stage)).symm.imp unused0 fun used => ?_
    rw [evalOutputs_y0, evalOutputs_y0, k0_agree used]
  · refine (Nat.lt_or_ge 1 (stageNumber stage)).symm.imp unused1 fun used => ?_
    rw [evalOutputs_y1, evalOutputs_y1, k0_agree (by omega), k1_agree used]
  · refine (Nat.lt_or_ge 2 (stageNumber stage)).symm.imp unused2 fun used => ?_
    rw [evalOutputs_y2, evalOutputs_y2, k0_agree (by omega), k1_agree (by omega), k2_agree used]

end Sys2Proof.Machine
end
